-- ==== Sys2Proof/Word.lean ====
section
/-! DEFINITION. The two data widths of the hardware. Every Word is unsigned and exactly 32 bits (R9, R124); a byte is 8 bits. -/

namespace Sys2Proof

/-- Word: a 32-bit unsigned integer (R7, R9, 00_scope.md). -/
abbrev Word := BitVec 32

/-- A byte of the message, of BLK or of DIGEST. -/
abbrev Byte := BitVec 8

end Sys2Proof
end

