-- ==== Sys2Proof/Machine/Datapath.lean ====
section
/-! DEFINITION. Word arithmetic and the mixing functions (40_word_datapath.md, R120 to R130), one round (R202), the
accumulation (R221), the serialisation (R224) and the schedule's recurrence (R180): combinational functions, no state. -/

namespace Sys2Proof.Machine

/-- add32: the sum over the natural numbers, modulo 2^32 (R120). -/
def add32 (xs : List Word) : Word := BitVec.ofNat 32 (xs.map BitVec.toNat).sum

/-- rotr: "((x >> n) | (x << (32-n))) masked to 32 bits" (R121), for 1 ≤ n ≤ 31. -/
def rotr (x : Word) (n : Nat) : Word := (x >>> n) ||| (x <<< (32 - n))

/-- shr: the logical shift right (R122), for 1 ≤ n ≤ 31. -/
def shr (x : Word) (n : Nat) : Word := x >>> n

/-- σ0 (R125). -/
def ssig0 (x : Word) : Word := rotr x 7 ^^^ rotr x 18 ^^^ shr x 3

/-- σ1 (R126). -/
def ssig1 (x : Word) : Word := rotr x 17 ^^^ rotr x 19 ^^^ shr x 10

/-- Σ0 (R127). -/
def bsig0 (x : Word) : Word := rotr x 2 ^^^ rotr x 13 ^^^ rotr x 22

/-- Σ1 (R128). -/
def bsig1 (x : Word) : Word := rotr x 6 ^^^ rotr x 11 ^^^ rotr x 25

/-- Ch, bitwise choose (R129). -/
def ch (x y z : Word) : Word := (x &&& y) ^^^ (~~~x &&& z)

/-- Maj, bitwise majority (R130). -/
def maj (x y z : Word) : Word := (x &&& y) ^^^ (x &&& z) ^^^ (y &&& z)

/-- The wire T1 of a round (R202): h + Σ1(e) + Ch(e, f, g) + k + w, with r = (a, …, h) indexed 0..7. -/
def roundT1 (r : Vector Word 8) (k w : Word) : Word := add32 [r[7], bsig1 r[4], ch r[4] r[5] r[6], k, w]

/-- The wire T2 of a round (R202): Σ0(a) + Maj(a, b, c). -/
def roundT2 (r : Vector Word 8) : Word := add32 [bsig0 r[0], maj r[0] r[1] r[2]]

/-- round(r, k, w), the whole chain shifted at once (R202). -/
def mixRound (r : Vector Word 8) (k w : Word) : Vector Word 8 :=
  #v[add32 [roundT1 r k w, roundT2 r], r[0], r[1], r[2], add32 [r[3], roundT1 r k w], r[4], r[5], r[6]]

/-- accumulate(s, r): eight independent additions (R221). -/
def accumulate (s r : Vector Word 8) : Vector Word 8 := Vector.ofFn fun k => add32 [s[k], r[k]]

/-- Byte j of a word's 4-byte big-endian encoding, bits 31 − 8j down to 24 − 8j (R10, R224). -/
def wordByte (x : Word) (j : Nat) : Byte := x.extractLsb' (24 - 8 * j) 8

/-- serialize(s): `d[4k + j] = s[k][31 − 8j : 24 − 8j]` (R224). -/
def serialize (s : Vector Word 8) : Vector Byte 32 :=
  Vector.ofFn fun i => wordByte (s[i.val / 4]'(by omega)) (i.val % 4)

/-- MemRead(BLK, j, 4) = `BLK[j] ‖ BLK[j+1] ‖ BLK[j+2] ‖ BLK[j+3]`, big-endian (R10, R64). -/
def memRead (blk : Vector Byte 64) (j : Nat) (hj : j + 3 < 64) : Word :=
  blk[j] ++ blk[j + 1] ++ blk[j + 2] ++ blk[j + 3]

/-- The schedule's recurrence at index i: `w[i-16] + σ0(w[i-15]) + w[i-7] + σ1(w[i-2])` (R180, R184). -/
def scheduleWord (w : Vector Word 64) (i : Nat) (lo : 16 ≤ i) (hi : i < 64) : Word :=
  add32 [w[i - 16], ssig0 w[i - 15], w[i - 7], ssig1 w[i - 2]]

end Sys2Proof.Machine
end

