-- ==== Sys2Proof/Config.lean ====
section
/-! DEFINITION. The free values: what the spec leaves open after an event after which the machine goes on. None has a
body, so no proof can see what one is. The first argument is the number of the draw (the field `draws` of State). -/

namespace Sys2Proof

/-- The value of `rsp` in a step with rsp_valid = 0: "any value when rsp_valid = 0" (R35, 10_state.md; U5 of
93_implementation_defined.md; D26 calls it a draw). Log entry 5. -/
opaque Config.freeRsp : Nat → Byte

/-- The value on `cmd` while cmd_valid = 0, which the block ignores (R35, R240; U6). Log entry 4. -/
opaque Config.freeCmd : Nat → BitVec 16

/-- The contents of H after a reset step (R43, R340; U1: any value). Log entry 2. -/
opaque Config.resetH : Nat → Vector Word 8

/-- The contents of A after a reset step (R43, R340; U1: any value). Log entry 2. -/
opaque Config.resetA : Nat → Vector Word 8

/-- The contents of W after a reset step (R43, R340; U1: any value). Log entry 2. -/
opaque Config.resetW : Nat → Vector Word 64

/-- The contents of BLK after a reset step (R43, R340; U1: any value). Log entry 2. -/
opaque Config.resetBlk : Nat → Vector Byte 64

/-- The contents of DIGEST after a reset step (R43, R340; U1: any value). Log entry 2. -/
opaque Config.resetDigest : Nat → Vector Byte 32

/-- The length field of a message of n bytes where n is 2^61 or more: 8n has no 64-bit value there, R160 and R270 give none, and
a model must not wrap it modulo 2^64 (U11). No message that the block or the adapter accepts reaches it. Log entry 27. -/
opaque Config.overlongLength : Nat → BitVec 64

end Sys2Proof
end

