-- ==== Sys2Proof/Machine/Codes.lean ====
section
/-! DEFINITION. The named codes of the control registers PHASE (R30), PADP (R31) and ERRCODE (R32). -/

namespace Sys2Proof.Machine

/-! PHASE is four bits that the host reads whole in `status[3:0]`, with six reserved codes, so it stays a bit vector; its
named codes are R30's (10_state.md). -/

/-- No message open, no digest available; the host steps. -/
abbrev Phase.idle : BitVec 4 := 0
/-- A message is open; the host steps. -/
abbrev Phase.opened : BitVec 4 := 1
/-- The padder emits bytes into BLK. -/
abbrev Phase.pad : BitVec 4 := 2
/-- W[0..15] are copied from BLK. -/
abbrev Phase.loadw : BitVec 4 := 3
/-- W[16..63] are derived. -/
abbrev Phase.expand : BitVec 4 := 4
/-- A is loaded from H. -/
abbrev Phase.loadregs : BitVec 4 := 5
/-- The 64 rounds run. -/
abbrev Phase.round : BitVec 4 := 6
/-- A is added into H. -/
abbrev Phase.accum : BitVec 4 := 7
/-- H is serialised into DIGEST. -/
abbrev Phase.serial : BitVec 4 := 8
/-- DIGEST holds the digest of the message; the host steps. -/
abbrev Phase.done : BitVec 4 := 9

/-- PADP, the padder's progress (R31, 10_state.md): two bits, four named codes, never visible to the host. -/
inductive Padp where
  /-- 0: no FINAL received for the open message. -/
  | pnone
  /-- 1: FINAL received, the 0x80 byte not yet written. -/
  | p80
  /-- 2: 0x80 written, zero bytes being written. -/
  | pz
  /-- 3: the length field is being, or has been, written. -/
  | pl
deriving DecidableEq, Repr

/-- The two-bit code of PADP (R31). -/
def Padp.code : Padp → BitVec 2
  | .pnone => 0
  | .p80 => 1
  | .pz => 2
  | .pl => 3

/-- The three errors a command can raise (R302, R303, R305, 60_exceptions.md). -/
inductive Err where
  /-- A word outside the 291 legal ones (R302). -/
  | illegal
  /-- A legal command in a phase that does not permit it (R303). -/
  | protocol
  /-- ABSORB when the message already holds 2^61 − 1 bytes (R305). -/
  | lenovf
deriving DecidableEq, Repr

/-- The code ERRCODE records for an error (R32, R302, R303, R305); 0 is NONE (R304). -/
def Err.code : Err → BitVec 3
  | .illegal => 1
  | .protocol => 2
  | .lenovf => 3

end Sys2Proof.Machine
end

