-- ==== Sys2Proof/Machine/State.lean ====
section
/-! DEFINITION. The machine's state as plain data, the reasons a step can stop, and the state after reset. -/

namespace Sys2Proof.Machine

/-- One move of the host (R351, 70_reset_and_hazards.md). The moves are taken in order; a command begun stays on the port,
unchanged, until it is accepted or a reset step comes (R240, R350). Sampling an output is no move: it changes nothing. -/
inductive HostMove where
  /-- One step passes in which the host begins nothing; a command already on the port stays there. -/
  | wait
  /-- The host begins to present this word, as soon as no earlier command is on the port. -/
  | present (word : BitVec 16)
  /-- The host raises `rst` for one step, as soon as no command is on the port. -/
  | reset
  /-- The host raises `rst` for one step at once, also beside a command it is presenting. -/
  | resetNow
  /-- The host begins to present this word and raises `rst`, both in one step, as soon as no earlier command is on the port.
  R351 lists the two moves apart and R340 speaks of a command presented beside `rst`: that a host may begin one there is DESIGN
  CHOICE, log entry 6. -/
  | presentReset (word : BitVec 16)
deriving DecidableEq, Repr

/-- Does this move of the host raise `rst`? -/
def HostMove.raisesReset : HostMove → Bool
  | .wait | .present _ => false
  | .reset | .resetNow | .presentReset _ => true

/-- Everything the spec gives the machine (10_state.md), the ports' values (R35), and two fields of the model's own. -/
structure State where
  /-- H[0..7], the Hash State (R20). -/
  h : Vector Word 8
  /-- A[0..7], the working registers a..h (R21). -/
  a : Vector Word 8
  /-- W[0..63], the Message Schedule (R24, R186). -/
  w : Vector Word 64
  /-- BLK[0..63], the chunk buffer (R25). -/
  blk : Vector Byte 64
  /-- DIGEST[0..31], the digest buffer (R26). -/
  digest : Vector Byte 32
  /-- FILL, bytes of the current chunk already in BLK (R27). -/
  fill : BitVec 7
  /-- LEN, message bytes absorbed since INIT (R28). -/
  len : BitVec 61
  /-- T, word index and round index (R29). -/
  t : BitVec 7
  /-- PHASE (R30). -/
  phase : BitVec 4
  /-- PADP (R31). -/
  padp : Padp
  /-- ERRCODE (R32). -/
  errcode : BitVec 3
  /-- The port `rst`, as the host drives it for the coming step (R35). -/
  rst : Bool
  /-- The port `cmd_valid`, as the host drives it for the coming step (R35). -/
  cmdValid : Bool
  /-- The port `cmd`, as the host drives it for the coming step (R35). -/
  cmd : BitVec 16
  /-- The port `rsp_valid`, as the last step left it (R35). -/
  rspValid : Bool
  /-- The port `rsp`, as the last step left it; meaningful only with rsp_valid = 1 (R35). -/
  rsp : Byte
  /-- MODEL'S OWN: the host's moves for the steps after the coming one (R351). Log entry 6. -/
  script : List HostMove
  /-- MODEL'S OWN: how many free values have been drawn. No statement rests on it. Log entry 5. -/
  draws : Nat
deriving DecidableEq, Repr

/-- Why the machine has no next state. No state reachable from reset raises one (R39). -/
inductive Fault where
  /-- Raised by the step when PHASE is 10 to 15 and rst = 0: "a state with such a code has no step other than reset"
  (R30; U2 `stuck`). Safe: the machine stops where the spec gives no step. -/
  | reservedPhase
  /-- Raised by ABSORB and PAD when FILL is above 63: BLK has no such element (R25, R60). Safe. -/
  | blkIndex
  /-- Raised by LOADW when T is above 15: "a model may give the state no step" (R183). Safe. -/
  | loadIndex
  /-- Raised by EXPAND when T is below 16 or above 63: "a model may give the state no step" (R184). Safe. -/
  | expandIndex
  /-- Raised by ROUND when T is above 63: "a model may give the state no step" (R201). Safe. -/
  | roundIndex
deriving DecidableEq, Repr

/-- Why an instruction has no meaning in the model. -/
inductive Refusal where
  /-- Raised by a dispatch arm without a meaning. No arm of this model raises it: all twelve rows have one. Safe. -/
  | notModelled (mnemonic : String)
deriving DecidableEq, Repr

/-- The outcome of a step of this machine. -/
abbrev Outcome := Host.Outcome State Fault Refusal

/-- The machine right after reset (R43): the control registers and rsp_valid as R43 gives them. H, A, W, BLK and DIGEST are
"unspecified" there and are zero here by DESIGN CHOICE (log entry 1, unsafe); the ports' other values, the empty script and
the draw counter are DESIGN CHOICE too (log entries 3, 5 and 6). -/
def State.reset : State where
  h := Vector.replicate 8 0
  a := Vector.replicate 8 0
  w := Vector.replicate 64 0
  blk := Vector.replicate 64 0
  digest := Vector.replicate 32 0
  fill := 0
  len := 0
  t := 0
  phase := Phase.idle
  padp := .pnone
  errcode := 0
  rst := false
  cmdValid := false
  cmd := 0
  rspValid := false
  rsp := 0
  script := []
  draws := 0

end Sys2Proof.Machine
end

