-- ==== Sys2Proof/Machine/Ops.lean ====
section
/-! DEFINITION. The named operations over the state: one update per field or port, the response of a step, raising an error
(the only thing in this hardware like an exception, R300, R301), the byte write that ABSORB and PAD share, and reset. -/

namespace Sys2Proof.Machine

/-! One update per field: `REG <- v` and the whole-array writes of R11. -/

/-- H <- v. -/
def State.setH (s : State) (v : Vector Word 8) : State := { s with h := v }
/-- A <- v. -/
def State.setA (s : State) (v : Vector Word 8) : State := { s with a := v }
/-- W <- v. -/
def State.setW (s : State) (v : Vector Word 64) : State := { s with w := v }
/-- BLK <- v. -/
def State.setBlk (s : State) (v : Vector Byte 64) : State := { s with blk := v }
/-- DIGEST <- v. -/
def State.setDigest (s : State) (v : Vector Byte 32) : State := { s with digest := v }
/-- FILL <- v. -/
def State.setFill (s : State) (v : BitVec 7) : State := { s with fill := v }
/-- LEN <- v. -/
def State.setLen (s : State) (v : BitVec 61) : State := { s with len := v }
/-- T <- v. -/
def State.setT (s : State) (v : BitVec 7) : State := { s with t := v }
/-- PHASE <- v, "the control transfer of this hardware" (R11). -/
def State.setPhase (s : State) (v : BitVec 4) : State := { s with phase := v }
/-- PADP <- v. -/
def State.setPadp (s : State) (v : Padp) : State := { s with padp := v }
/-- ERRCODE <- v. -/
def State.setErrcode (s : State) (v : BitVec 3) : State := { s with errcode := v }
/-- What the host drives on `rst`, `cmd_valid` and `cmd` for the coming step (R35). -/
def State.setPins (s : State) (rst valid : Bool) (word : BitVec 16) : State :=
  { s with rst := rst, cmdValid := valid, cmd := word }
/-- What the block drives on `rsp_valid` and `rsp` (R35). -/
def State.setResponse (s : State) (valid : Bool) (byte : Byte) : State := { s with rspValid := valid, rsp := byte }
/-- The host's moves still to come. -/
def State.setScript (s : State) (v : List HostMove) : State := { s with script := v }
/-- Counts one more draw of a free value. -/
def State.countDraw (s : State) : State := { s with draws := s.draws + 1 }

/-- `respond(v)`: the step returns byte v, rsp_valid = 1 (R11, R245). -/
def State.respond (s : State) (v : Byte) : State := s.setResponse true v

/-- A step without `respond`: rsp_valid = 0, and `rsp` is any value, a free one (R11, R35; log entry 5). -/
def State.noResponse (s : State) : State := (s.setResponse false (Config.freeRsp s.draws)).countDraw

/-- `raise Err(c)`: `if ERRCODE = 0 then ERRCODE <- c`; nothing else of the block changes and there is no response (R301).
The one shared way an error is taken: ILLEGAL, PROTOCOL and LENOVF all go through it. -/
def State.raiseErr (s : State) (e : Err) : State :=
  (if s.errcode = 0 then s.setErrcode e.code else s).noResponse

/-- The byte write of ABSORB and PAD (R27, R163, R243): `BLK[FILL] <- v`, `FILL <- FILL + 1`; at 64 the chunk is complete,
PHASE <- LOADW and T <- 0, else PHASE <- `stay`. BLK has no element 64 or above: such a FILL, unreachable, faults. -/
def State.putByte (s : State) (stay : BitVec 4) (v : Byte) : Outcome :=
  if hf : s.fill.toNat < 64 then
    let s' := (s.setBlk (s.blk.set s.fill.toNat v hf)).setFill (s.fill + 1)
    if s.fill + 1 = 64 then .next ((s'.setPhase Phase.loadw).setT 0) else .next (s'.setPhase stay)
  else .fault .blkIndex

/-- The reset step (R340): the control registers as R43 gives them, and H, A, W, BLK, DIGEST any value, free ones (U1; log
entry 2). There is no response. -/
def State.resetStep (s : State) : State where
  h := Config.resetH s.draws
  a := Config.resetA s.draws
  w := Config.resetW s.draws
  blk := Config.resetBlk s.draws
  digest := Config.resetDigest s.draws
  fill := 0
  len := 0
  t := 0
  phase := Phase.idle
  padp := .pnone
  errcode := 0
  rst := s.rst
  cmdValid := s.cmdValid
  cmd := s.cmd
  rspValid := false
  rsp := Config.freeRsp s.draws
  script := s.script
  draws := s.draws + 1

/-- INIT's writes (R242): the initial Hash State, and every control register but T. -/
def State.openMessage (s : State) : State :=
  (((((s.setH IV).setFill 0).setLen 0).setPadp .pnone).setErrcode 0).setPhase Phase.opened

/-- What an accepted illegal word does: `raise Err(ILLEGAL)` and nothing else (R246, R302). -/
def State.illegalWord (s : State) : State := s.raiseErr .illegal

/-- A step in which the block is not busy and no command is presented: no step of the block, no response (R240, R322). -/
def State.waitStep (s : State) : State := s.noResponse

/-- The host presents nothing: cmd_valid = 0, and `cmd` is any value, a free one, that no rule reads (R35, R240; U6; log
entry 4). -/
def State.freePort (s : State) (rst : Bool) : State := (s.setPins rst false (Config.freeCmd s.draws)).countDraw

/-- The host's part of a step: what the ports carry in the next one. A command presented and not accepted (`held`) stays on
the port unchanged, and the host may still raise `rst`; it never swaps a held command (R240, R350, R351; log entry 6). It may
raise `rst` with the port empty, beside a held command, or beside a command that it begins in that very step (DESIGN CHOICE, log
entry 6; R340 says what becomes of the command). With no move left it raises no reset and begins no command, for ever (R277, R351). -/
def State.driveHost (s : State) (held : Bool) : State :=
  match s.script, held with
  | [], true => s.setPins false true s.cmd
  | [], false => s.freePort false
  | .wait :: rest, true => (s.setPins false true s.cmd).setScript rest
  | .wait :: rest, false => (s.freePort false).setScript rest
  | .present _ :: _, true => s.setPins false true s.cmd
  | .present word :: rest, false => (s.setPins false true word).setScript rest
  | .reset :: _, true => s.setPins false true s.cmd
  | .reset :: rest, false => (s.freePort true).setScript rest
  | .resetNow :: rest, true => (s.setPins true true s.cmd).setScript rest
  | .resetNow :: rest, false => (s.freePort true).setScript rest
  | .presentReset _ :: _, true => s.setPins false true s.cmd
  | .presentReset word :: rest, false => (s.setPins true true word).setScript rest

end Sys2Proof.Machine
end

