-- ==== Sys2Proof/Machine/Accumulator.lean ====
section
/-! DEFINITION. The state accumulator's and digest serializer's micro-operations ACCUM and SERIAL (44_accumulate_digest.md). -/

namespace Sys2Proof.Machine

/-- The phase after ACCUM, chosen by PADP alone (R220): PNONE OPEN, PL SERIAL, and PZ (or the unreachable P80) PAD. -/
def phaseAfterChunk : Padp → BitVec 4
  | .pnone => Phase.opened
  | .pl => Phase.serial
  | .pz => Phase.pad
  | .p80 => Phase.pad

/-- ACCUM (R220): H[k] <- add32(H[k], A[k]) for all k at once, FILL <- 0, and the next phase by PADP. -/
def execAccum (s : State) : Outcome :=
  .next (((s.setH (accumulate s.h s.a)).setFill 0).setPhase (phaseAfterChunk s.padp)).noResponse

/-- SERIAL (R222): DIGEST <- serialize(H), PHASE <- DONE. -/
def execSerial (s : State) : Outcome := .next ((s.setDigest (serialize s.h)).setPhase Phase.done).noResponse

end Sys2Proof.Machine
end

