-- ==== Sys2Proof/Machine/Operands.lean ====
section
/-! DEFINITION. The operand forms: what a command's immediate stands for (R92), and the byte the padder selects (R94, R162,
R163). The indices of the other steps are the counters FILL and T themselves (R72). -/

namespace Sys2Proof.Machine

/-- RDD's index, `arg[4:0]` as an unsigned number 0..31 (R92, R245). -/
def rddIndex (arg : Byte) : BitVec 5 := arg.extractLsb' 0 5

/-- The 64-bit bit-length `LEN ‖ 000` (R28, R162). -/
def lengthField (len : BitVec 61) : BitVec 64 := len ++ (0 : BitVec 3)

/-- lenbyte(j), byte j of the length field, most significant first: `L[63 − 8j : 56 − 8j]` (R162). -/
def lenbyte (len : BitVec 61) (j : BitVec 3) : Byte := (lengthField len).extractLsb' (56 - 8 * j.toNat) 8

/-- The byte PAD emits and the value PADP takes (R94, R163). The arm of PNONE, and lenbyte with FILL below 56, are
unreachable and have the meaning R163 gives them. -/
def padSelect (padp : Padp) (fill : BitVec 7) (len : BitVec 61) : Byte × Padp :=
  if padp = .p80 ∨ padp = .pnone then (0x80, .pz)
  else if padp = .pz ∧ fill ≠ 56 then (0x00, .pz)
  else (lenbyte len (fill.extractLsb' 0 3), .pl)

end Sys2Proof.Machine
end

