-- ==== Sys2Proof/Machine/Commands.lean ====
section
/-! DEFINITION. The five host commands (45_host_commands.md). Each is checked in the order encoding, phase, value (R240,
R306); the encoding was checked by the decoder. A meaning is the command step itself: that a command is accepted only
while the block is not busy is the step's affair (R240). -/

namespace Sys2Proof.Machine

/-- NOP: no state changes, not even ERRCODE; no response (R241). -/
def execNop (s : State) : Outcome := .next s.noResponse

/-- INIT: opens a message, from any phase that accepts a command (R242, R247); no response. -/
def execInit (s : State) : Outcome := .next s.openMessage.noResponse

/-- ABSORB b (R243): PROTOCOL outside OPEN, LENOVF at 2^61 − 1 bytes, else one byte of the message is appended. -/
def execAbsorb (b : Byte) (s : State) : Outcome :=
  if s.phase ≠ Phase.opened then .next (s.raiseErr .protocol)
  else if s.len = BitVec.allOnes 61 then .next (s.raiseErr .lenovf)
  else (s.noResponse.setLen (s.len + 1)).putByte Phase.opened b

/-- FINAL (R244): PROTOCOL outside OPEN, else PADP <- P80 and PHASE <- PAD; no response. -/
def execFinal (s : State) : Outcome :=
  if s.phase ≠ Phase.opened then .next (s.raiseErr .protocol)
  else .next ((s.setPadp .p80).setPhase Phase.pad).noResponse

/-- RDD i (R245): PROTOCOL outside DONE, else the byte DIGEST[i] is the response and no register changes. -/
def execRdd (arg : Byte) (s : State) : Outcome :=
  if s.phase ≠ Phase.done then .next (s.raiseErr .protocol)
  else .next (s.respond (s.digest[(rddIndex arg).toNat]'(rddIndex arg).isLt))

end Sys2Proof.Machine
end

