-- ==== Sys2Proof/Machine/Compression.lean ====
section
/-! DEFINITION. The compression engine's micro-operations LOADREGS and ROUND (43_compression.md). -/

namespace Sys2Proof.Machine

/-- LOADREGS (R200): A[k] <- H[k] for all k at once, T <- 0, PHASE <- ROUND. -/
def execLoadregs (s : State) : Outcome := .next (((s.setA s.h).setT 0).setPhase Phase.round).noResponse

/-- ROUND (R201): A <- round(A, K[T], W[T]), T + 1, and ACCUM after index 63. T above 63, unreachable, has no step. -/
def execRound (s : State) : Outcome :=
  if ht : s.t.toNat < 64 then
    .next ((((s.setA (mixRound s.a K[s.t.toNat] s.w[s.t.toNat])).setT (s.t + 1)).setPhase
      (if s.t + 1 = 64 then Phase.accum else Phase.round)).noResponse)
  else .fault .roundIndex

end Sys2Proof.Machine
end

