-- ==== Sys2Proof/Machine/Padder.lean ====
section
/-! DEFINITION. The message padder's micro-operation PAD (41_padder.md). -/

namespace Sys2Proof.Machine

/-- PAD (R163): emits one byte chosen by PADP and FILL, advances PADP, and completes the chunk at FILL = 64. -/
def execPad (s : State) : Outcome :=
  let sel := padSelect s.padp s.fill s.len
  (s.noResponse.setPadp sel.2).putByte Phase.pad sel.1

end Sys2Proof.Machine
end

