-- ==== Sys2Proof/Machine/Scheduler.lean ====
section
/-! DEFINITION. The block scheduler's micro-operations LOADW and EXPAND (42_schedule.md). -/

namespace Sys2Proof.Machine

/-- LOADW (R183): W[T] <- MemRead(BLK, 4T, 4), T + 1, and EXPAND after index 15. T above 15, unreachable, has no step. -/
def execLoadw (s : State) : Outcome :=
  if ht : s.t.toNat < 16 then
    .next ((((s.setW (s.w.set s.t.toNat (memRead s.blk (4 * s.t.toNat) (by omega)))).setT (s.t + 1)).setPhase
      (if s.t + 1 = 16 then Phase.expand else Phase.loadw)).noResponse)
  else .fault .loadIndex

/-- EXPAND (R184): W[T] <- the recurrence of R180, T + 1, and LOADREGS after index 63. T below 16 or above 63, unreachable,
has no step. -/
def execExpand (s : State) : Outcome :=
  if ht : 16 ≤ s.t.toNat ∧ s.t.toNat < 64 then
    .next ((((s.setW (s.w.set s.t.toNat (scheduleWord s.w s.t.toNat ht.1 ht.2) ht.2)).setT (s.t + 1)).setPhase
      (if s.t + 1 = 64 then Phase.loadregs else Phase.expand)).noResponse)
  else .fault .expandIndex

end Sys2Proof.Machine
end

