-- ==== Sys2Proof/Syntax.lean ====
section
/-! DEFINITION. The instruction set of the hardware (R1): five host commands and seven sequencer micro-operations, one
constructor for each row of spec/opcode_table.json. -/

namespace Sys2Proof

/-- One constructor per row of spec/opcode_table.json, in the table's order. The only operand is the 8-bit immediate
`arg` (R90, R92): the message byte of ABSORB, and for RDD the argument byte whose low five bits are the digest index. -/
inductive Instr where
  /-- NOP, R241. -/
  | nop
  /-- INIT, R242. -/
  | init
  /-- ABSORB b, R243. -/
  | absorb (b : Byte)
  /-- FINAL, R244. -/
  | final
  /-- RDD, R245; `arg` is the whole argument byte of the command word, legal when it is below 32. -/
  | rdd (arg : Byte)
  /-- PAD, R163. -/
  | pad
  /-- LOADW, R183. -/
  | loadw
  /-- EXPAND, R184. -/
  | expand
  /-- LOADREGS, R200. -/
  | loadregs
  /-- ROUND, R201. -/
  | round
  /-- ACCUM, R220. -/
  | accum
  /-- SERIAL, R222. -/
  | serial
deriving DecidableEq, Repr

end Sys2Proof
end

