-- ==== Sys2Proof/Machine/Dispatch.lean ====
section
/-! DEFINITION. The dispatch: one arm per row of the opcode table. -/

namespace Sys2Proof.Machine

def exec (i : Instr) (s : State) : Host.Outcome State Fault Refusal :=
  match i with
  | .nop => Sys2Proof.Machine.execNop s
  | .init => Sys2Proof.Machine.execInit s
  | .absorb b => Sys2Proof.Machine.execAbsorb b s
  | .final => Sys2Proof.Machine.execFinal s
  | .rdd arg => Sys2Proof.Machine.execRdd arg s
  | .pad => Sys2Proof.Machine.execPad s
  | .loadw => Sys2Proof.Machine.execLoadw s
  | .expand => Sys2Proof.Machine.execExpand s
  | .loadregs => Sys2Proof.Machine.execLoadregs s
  | .round => Sys2Proof.Machine.execRound s
  | .accum => Sys2Proof.Machine.execAccum s
  | .serial => Sys2Proof.Machine.execSerial s

end Sys2Proof.Machine
end

