-- ==== Sys2Proof/WellFormed.lean ====
section
/-! DEFINITION. Which instruction terms a legal encoding can stand for. -/

namespace Sys2Proof

/-- Well-formedness: RDD's argument byte has bits 7:5 zero, that is, it is an index 0..31 (R92, R95, R96). Every other
term of Instr is well-formed: ABSORB takes any byte, and the rest have no operand. -/
def Instr.wellFormed : Instr → Bool
  | .rdd arg => arg.extractLsb' 5 3 == 0
  | .nop | .init | .absorb _ | .final | .pad | .loadw | .expand | .loadregs | .round | .accum | .serial => true

end Sys2Proof
end

