-- ==== Sys2Proof/Decode.lean ====
section
/-! DEFINITION. The decoder and the encoder. A host command is encoded in a 16-bit word (R90, R91, 30_encoding.md); a
micro-operation has no word and is selected by the 4-bit PHASE register, "which is in that sense its encoding" (R93). -/

namespace Sys2Proof

open Sys2Proof.Machine

/-- What is decoded: a CMD16 word on the command port, or the PHASE4 code in the PHASE register. -/
inductive Encoding where
  | cmd16 (word : BitVec 16)
  | phase4 (code : BitVec 4)
deriving DecidableEq, Repr

/-- Why a word or a phase code stands for no instruction. The first four are the checks of R95, in its order; the last two
are the PHASE codes that select no micro-operation (R93). -/
inductive Illegal where
  /-- `cmd[11:8]` is not 0. -/
  | reservedBits
  /-- NOP, INIT or FINAL with a non-zero argument. -/
  | argNotZero
  /-- RDD with an argument of 32 or more. -/
  | indexOutOfRange
  /-- `op` in 0x5..0xF. -/
  | unassignedOp
  /-- PHASE 0, 1 or 9: the host steps. -/
  | hostPhase
  /-- PHASE 10 to 15: reserved, nobody steps. -/
  | reservedPhase
deriving DecidableEq, Repr

/-- The decoder's verdict (R95): an instruction, or Illegal with its reason. -/
inductive Verdict where
  | instr (i : Instr)
  | illegal (why : Illegal)
deriving DecidableEq, Repr

/-- The instruction of a verdict, if it is one. -/
def Verdict.toOption : Verdict → Option Instr
  | .instr i => some i
  | .illegal _ => none

/-- The field `op`, bits 15:12 (R90). -/
def opField (w : BitVec 16) : BitVec 4 := w.extractLsb' 12 4

/-- The field `rsv`, bits 11:8 (R90). -/
def rsvField (w : BitVec 16) : BitVec 4 := w.extractLsb' 8 4

/-- The field `arg`, bits 7:0, taken as it stands (R90, R92). -/
def argField (w : BitVec 16) : Byte := w.extractLsb' 0 8

/-- A command without an operand: its argument must be 0x00 (R95). -/
def decodeBare (i : Instr) (arg : Byte) : Verdict :=
  if arg = 0 then .instr i else .illegal .argNotZero

/-- decode(w), total on 16-bit words, the first failing check deciding (R95, R96). -/
def decodeCmd (w : BitVec 16) : Verdict :=
  if rsvField w ≠ 0 then .illegal .reservedBits
  else if opField w = 0x0 then decodeBare .nop (argField w)
  else if opField w = 0x1 then decodeBare .init (argField w)
  else if opField w = 0x2 then .instr (.absorb (argField w))
  else if opField w = 0x3 then decodeBare .final (argField w)
  else if opField w = 0x4 then
    if argField w < 32 then .instr (.rdd (argField w)) else .illegal .indexOutOfRange
  else .illegal .unassignedOp

/-- The micro-operation a PHASE code selects (R93); codes 0, 1 and 9 leave the step to the host, 10 to 15 are reserved. -/
def decodePhase (p : BitVec 4) : Verdict :=
  if p = Phase.pad then .instr .pad
  else if p = Phase.loadw then .instr .loadw
  else if p = Phase.expand then .instr .expand
  else if p = Phase.loadregs then .instr .loadregs
  else if p = Phase.round then .instr .round
  else if p = Phase.accum then .instr .accum
  else if p = Phase.serial then .instr .serial
  else if p = Phase.idle ∨ p = Phase.opened ∨ p = Phase.done then .illegal .hostPhase
  else .illegal .reservedPhase

/-- The decoder over both kinds of encoding. -/
def decode : Encoding → Verdict
  | .cmd16 w => decodeCmd w
  | .phase4 p => decodePhase p

/-- A command word laid out by R90: `op ‖ 0000 ‖ arg`. -/
def cmdWord (op : BitVec 4) (arg : Byte) : BitVec 16 := op ++ (0 : BitVec 4) ++ arg

/-- The encoding of an instruction (R91 for the commands, R93 for the micro-operations). -/
def encode : Instr → Encoding
  | .nop => .cmd16 (cmdWord 0x0 0)
  | .init => .cmd16 (cmdWord 0x1 0)
  | .absorb b => .cmd16 (cmdWord 0x2 b)
  | .final => .cmd16 (cmdWord 0x3 0)
  | .rdd arg => .cmd16 (cmdWord 0x4 arg)
  | .pad => .phase4 Phase.pad
  | .loadw => .phase4 Phase.loadw
  | .expand => .phase4 Phase.expand
  | .loadregs => .phase4 Phase.loadregs
  | .round => .phase4 Phase.round
  | .accum => .phase4 Phase.accum
  | .serial => .phase4 Phase.serial

/-- Is the instruction a host command (format CMD16) rather than a micro-operation (format PHASE4)? -/
def Instr.isCommand : Instr → Bool
  | .nop | .init | .absorb _ | .final | .rdd _ => true
  | .pad | .loadw | .expand | .loadregs | .round | .accum | .serial => false

/-- The encoding that the bits `w` of an opcode-table row of `nbits` bits stand for: rows of format PHASE4 have four bits
(one whole byte), rows of format CMD16 have sixteen. -/
def tableEncoding (nbits w : Nat) : Option Encoding :=
  if nbits ≤ 8 then if w < 16 then some (.phase4 (BitVec.ofNat 4 w)) else none
  else if nbits ≤ 16 then if w < 65536 then some (.cmd16 (BitVec.ofNat 16 w)) else none
  else none

/-- The instruction the decoder reads from an opcode-table word of `nbits` bits. -/
def decodeTableWord (nbits w : Nat) : Option Instr :=
  match tableEncoding nbits w with
  | some e => (decode e).toOption
  | none => none

end Sys2Proof
end

