-- ==== Sys2Proof/Machine/Flags.lean ====
section
/-! DEFINITION. The predicates and outputs that are functions of the state (R33, R34, R35): the hardware has no condition
codes, and no step sets a flag by arithmetic. -/

namespace Sys2Proof.Machine

/-- BUSY ⇔ 2 ≤ PHASE ≤ 8 (R33, R34). -/
def State.busy (s : State) : Bool := decide (2 ≤ s.phase ∧ s.phase ≤ 8)

/-- DV, digest valid ⇔ PHASE = 9 (R34). -/
def State.dv (s : State) : Bool := s.phase == Phase.done

/-- ERR ⇔ ERRCODE ≠ 0 (R34). -/
def State.err (s : State) : Bool := s.errcode != 0

/-- The output `cmd_ready` = NOT BUSY (R34, R35). -/
def State.cmdReady (s : State) : Bool := !s.busy

/-- The output `status`: bit 7 BUSY, bits 6:4 ERRCODE, bits 3:0 PHASE (R33). Sampling it is no step. -/
def State.status (s : State) : BitVec 8 := BitVec.ofBool s.busy ++ s.errcode ++ s.phase

end Sys2Proof.Machine
end

