-- ==== Sys2Proof/Machine/Fetch.lean ====
section
/-! DEFINITION. Which step is enabled in a state (R12), and how an instruction is put where the next step finds it. -/

namespace Sys2Proof.Machine

/-- What the coming step is: "the acceptance of one host command, one sequencer micro-operation, or a reset" (R12); or no
step of the block (R240, R322); or the stuck state of a reserved PHASE (R30). -/
inductive Selection where
  | reset
  | micro (i : Instr)
  | command (i : Instr)
  | illegalWord
  | wait
  | stuck
deriving DecidableEq, Repr

/-- The acceptance of the word on the command port, in a phase in which the host steps (R240, R246). -/
def selectCommand (s : State) : Selection :=
  if s.cmdValid then
    match decodeCmd s.cmd with
    | .instr i => .command i
    | .illegal _ => .illegalWord
  else .wait

/-- Which step is enabled: reset over everything (R340), else by PHASE alone (R12, R30, R93). -/
def select (s : State) : Selection :=
  if s.rst then .reset
  else match decodePhase s.phase with
    | .instr i => .micro i
    | .illegal .hostPhase => selectCommand s
    | .illegal .reservedPhase => .stuck
    | .illegal .reservedBits => .stuck
    | .illegal .argNotZero => .stuck
    | .illegal .indexOutOfRange => .stuck
    | .illegal .unassignedOp => .stuck

/-- Is the command on the port still unaccepted after the coming step (R240)? Only a micro-operation leaves it there: a
command step accepts it, and after a reset step "the host must present it again" (R340; log entry 9). -/
def State.heldAfter (s : State) : Bool := s.busy && s.cmdValid && !s.rst

/-- The value of T a micro-operation needs to be in its range (R29, R93): T itself where it is, else the range's first. -/
def indexFor (p : BitVec 4) (t : BitVec 7) : BitVec 7 :=
  if p = Phase.loadw then if t.toNat < 16 then t else 0
  else if p = Phase.expand then if 16 ≤ t.toNat ∧ t.toNat < 64 then t else 16
  else if p = Phase.round then if t.toNat < 64 then t else 0
  else t

/-- The value of FILL that PAD needs to be in its range (R27, R163): FILL itself where it is, else 0. -/
def fillFor (p : BitVec 4) (fill : BitVec 7) : BitVec 7 :=
  if p = Phase.pad then if fill.toNat < 64 then fill else 0 else fill

/-- Puts a micro-operation where the next step selects it: PHASE itself, with T and FILL in that phase's range, no reset. -/
def State.placePhase (s : State) (p : BitVec 4) : State :=
  (((s.setPhase p).setT (indexFor p s.t)).setFill (fillFor p s.fill)).setPins false s.cmdValid s.cmd

/-- Puts a command where the next step accepts it: on the port, valid, without reset. A block that is busy or stuck would
accept nothing, so there PHASE becomes IDLE; in IDLE, OPEN and DONE it is left alone. -/
def State.placeCommand (s : State) (word : BitVec 16) : State :=
  (if decodePhase s.phase = .illegal .hostPhase then s else s.setPhase Phase.idle).setPins false true word

/-- Puts an encoded instruction where the next step finds it. -/
def State.place (s : State) : Encoding → State
  | .cmd16 word => s.placeCommand word
  | .phase4 code => s.placePhase code

end Sys2Proof.Machine
end

