-- ==== Sys2Proof/Machine/Step.lean ====
section
/-! DEFINITION. One step of the machine (R12, R13): the block's step, then what the host drives for the next one. -/

namespace Sys2Proof.Machine

/-- After the block's step: the host drives the ports for the next one. A fault or a refusal stays as it is. -/
def afterStep (held : Bool) : Outcome → Outcome
  | .next s => .next (s.driveHost held)
  | .fault r => .fault r
  | .refused r => .refused r

/-- The block's part of a step (R12). -/
def blockStep (s : State) : Outcome :=
  match select s with
  | .reset => .next s.resetStep
  | .micro i => exec i s
  | .command i => exec i s
  | .illegalWord => .next s.illegalWord
  | .wait => .next s.waitStep
  | .stuck => .fault .reservedPhase

/-- One step. -/
def step (s : State) : Host.Outcome State Fault Refusal := afterStep s.heldAfter (blockStep s)

/-- `s` with the instruction whose opcode-table bits are `w` stored where `step` finds its next one: a command on the
command port, a micro-operation in PHASE (R93). Bits that are no encoding at all leave the state as it is. -/
def State.withFetchWord (s : State) (nbits w : Nat) : State :=
  match tableEncoding nbits w with
  | some e => s.place e
  | none => s

end Sys2Proof.Machine
end

