-- ==== Sys2Proof/Machine/Adapter.lean ====
section
/-! DEFINITION. The host's side of the port: the command sequences, the responses a run returns, the host adapter
`hash_entry` with DOC's one error (R310 to R313), and the hexadecimal rendering of a digest (R287). All of it is outside the
block; the spec specifies it, and nothing in `step` calls it. -/

namespace Sys2Proof.Machine

/-- The host's move that presents a command; a micro-operation has no word to present, so for one the host lets a step pass. -/
def presentMove (i : Instr) : HostMove :=
  match encode i with
  | .cmd16 word => .present word
  | .phase4 _ => .wait

/-- The commands that send a message: INIT, one ABSORB per byte in order, FINAL (R283, R310). -/
def sendCommands (m : List Byte) : List Instr := [.init] ++ m.map .absorb ++ [.final]

/-- RDD 0, RDD 1, …, RDD 31 (R98, R310). -/
def readCommands : List Instr := (List.range 32).map fun i => .rdd (BitVec.ofNat 8 i)

/-- The bytes returned on the response port in the first n steps, in order: those with rsp_valid = 1 (R11, R35). -/
def responses : Nat → State → List Byte
  | 0, _ => []
  | n + 1, s =>
    match step s with
    | .next s' => (if s'.rspValid then [s'.rsp] else []) ++ responses n s'
    | .fault _ => []
    | .refused _ => []

/-- What a caller hands to the entry point: "a single explicit sum type over {Text, RawBytes} … and a rejection path for
anything else" (R310). -/
inductive Input where
  | rawBytes (bytes : List Byte)
  | text (chars : List Char)
  | other
deriving DecidableEq, Repr

/-- The adapter's failures: bare names, no payload, no code in ERRCODE (R310, R312, R313; U13). -/
inductive AdapterError where
  /-- The value is neither text nor bytes (R310). -/
  | invalidInputType
  /-- The message is longer than 2^61 − 1 bytes (R313). -/
  | messageTooLong
deriving DecidableEq, Repr

/-- The one constraint on the OPEN parameter `text_to_bytes`: each ASCII character becomes its one-byte code (R311). -/
def AsciiFaithful (textToBytes : List Char → List Byte) : Prop :=
  ∀ t : List Char, (∀ c ∈ t, c.toNat < 128) → textToBytes t = t.map fun c => BitVec.ofNat 8 c.toNat

/-- hash_entry (R310): the moves that hash the input, or a failure before any command is issued (R312, R313). The OPEN
parameter `text_to_bytes` is an argument (R311; log entry 18). -/
def hashEntry (textToBytes : List Char → List Byte) (x : Input) : Except AdapterError (List HostMove) :=
  let issue (m : List Byte) : Except AdapterError (List HostMove) :=
    if m.length > 2 ^ 61 - 1 then .error .messageTooLong
    else .ok ((sendCommands m ++ readCommands).map presentMove)
  match x with
  | .rawBytes bytes => issue bytes
  | .text chars => issue (textToBytes chars)
  | .other => .error .invalidInputType

/-- One hexadecimal digit, lowercase (R287). -/
def hexDigit (v : BitVec 4) : Char :=
  if v.toNat < 10 then Char.ofNat (48 + v.toNat) else Char.ofNat (87 + v.toNat)

/-- The hex string of a digest: for each byte the characters of bits 7:4, then of bits 3:0 (R287). -/
def hexDigest (d : List Byte) : List Char :=
  d.flatMap fun b => [hexDigit (b.extractLsb' 4 4), hexDigit (b.extractLsb' 0 4)]

end Sys2Proof.Machine
end

