-- ==== Sys2Proof/Machine/Script.lean ====
section
/-! DEFINITION. The command-script syntax (R97) and its pseudo-commands (R98, 30_encoding.md): a line of text, the line it
stands for, and the host's moves it expands to. -/

namespace Sys2Proof.Machine

/-- One line of a command script (R97, R98). Operands are numbers as written, not yet checked. -/
inductive ScriptLine where
  | nop
  | init
  | absorb (b : Nat)
  | final
  | rdd (i : Nat)
  | word (w : Nat)
  | absorbs (text : List Char)
  | absorbx (bytes : List Nat)
  | rddall
  | hash (text : List Char)
  | reset
deriving DecidableEq, Repr

/-- Errors of the script, which are no words (R97). -/
inductive ScriptError where
  | unknownMnemonic
  | badOperand
  | outOfRange
deriving DecidableEq, Repr

/-- A character allowed in a literal: codes 0x20..0x7E other than the double quote (R98). -/
def literalChar (c : Char) : Bool := 0x20 ≤ c.toNat && c.toNat ≤ 0x7E && c.toNat != 0x22

/-- ABSORBS "text": one ABSORB per character, its ASCII code (R98). -/
def absorbText (text : List Char) : Except ScriptError (List HostMove) :=
  if text.all literalChar then .ok (text.map fun c => presentMove (.absorb (BitVec.ofNat 8 c.toNat)))
  else .error .outOfRange

/-- The moves of one line (R97, R98); every line is presented and held until accepted. -/
def ScriptLine.moves : ScriptLine → Except ScriptError (List HostMove)
  | .nop => .ok [presentMove .nop]
  | .init => .ok [presentMove .init]
  | .absorb b => if b ≤ 255 then .ok [presentMove (.absorb (BitVec.ofNat 8 b))] else .error .outOfRange
  | .final => .ok [presentMove .final]
  | .rdd i => if i ≤ 31 then .ok [presentMove (.rdd (BitVec.ofNat 8 i))] else .error .outOfRange
  | .word w => if w ≤ 0xFFFF then .ok [.present (BitVec.ofNat 16 w)] else .error .outOfRange
  | .absorbs text => absorbText text
  | .absorbx bytes =>
    if bytes.all (· ≤ 255) then .ok (bytes.map fun b => presentMove (.absorb (BitVec.ofNat 8 b))) else .error .outOfRange
  | .rddall => .ok (readCommands.map presentMove)
  | .hash text =>
    match absorbText text with
    | .ok ms => .ok ([presentMove .init] ++ ms ++ [presentMove .final] ++ readCommands.map presentMove)
    | .error e => .error e
  | .reset => .ok [.reset]

/-- The value of a digit, hexadecimal in either case. -/
def digitValue (c : Char) : Option Nat :=
  let n := c.toNat
  if 48 ≤ n ∧ n ≤ 57 then some (n - 48)
  else if 65 ≤ n ∧ n ≤ 70 then some (n - 55)
  else if 97 ≤ n ∧ n ≤ 102 then some (n - 87)
  else none

/-- The digits' value in a base, `acc` being the value of the digits before them. -/
def digitsFrom (base acc : Nat) : List Char → Option Nat
  | [] => some acc
  | c :: cs =>
    match digitValue c with
    | some d => if d < base then digitsFrom base (base * acc + d) cs else none
    | none => none

/-- A number: decimal, or hexadecimal after 0x (R97). -/
def parseNumber : List Char → Option Nat
  | [] => none
  | '0' :: 'x' :: [] => none
  | '0' :: 'x' :: d :: ds => digitsFrom 16 0 (d :: ds)
  | d :: ds => digitsFrom 10 0 (d :: ds)

/-- A two-digit hexadecimal group of ABSORBX (R98). -/
def parseGroup (g : List Char) : Option Nat := if g.length = 2 then digitsFrom 16 0 g else none

/-- The words of a text, parted by spaces; `cur` is the word being read, in reverse. -/
def wordsFrom (cur : List Char) : List Char → List (List Char)
  | [] => if cur.isEmpty then [] else [cur.reverse]
  | c :: cs =>
    if c = ' ' then (if cur.isEmpty then wordsFrom [] cs else cur.reverse :: wordsFrom [] cs) else wordsFrom (c :: cur) cs

/-- The text before a comment (R97). -/
def beforeComment (l : List Char) : List Char := l.takeWhile (· ≠ '#')

/-- The line without leading spaces. -/
def skipSpaces (l : List Char) : List Char := l.dropWhile (· = ' ')

/-- The literal of ABSORBS or HASH: between two double quotes, with nothing but a comment after it (R98). -/
def parseLiteral (l : List Char) : Option (List Char) :=
  match skipSpaces l with
  | '"' :: rest =>
    match rest.dropWhile (· ≠ '"') with
    | '"' :: tail => if (wordsFrom [] (beforeComment tail)).isEmpty then some (rest.takeWhile (· ≠ '"')) else none
    | _ => none
  | _ => none

/-- A line that takes one number. -/
def oneNumber (mk : Nat → ScriptLine) : List (List Char) → Except ScriptError ScriptLine
  | [n] =>
    match parseNumber n with
    | some v => .ok (mk v)
    | none => .error .badOperand
  | _ => .error .badOperand

/-- A line that takes no operand. -/
def noOperand (line : ScriptLine) : List (List Char) → Except ScriptError ScriptLine
  | [] => .ok line
  | _ => .error .badOperand

/-- A line that takes a literal. -/
def oneLiteral (mk : List Char → ScriptLine) (l : List Char) : Except ScriptError ScriptLine :=
  match parseLiteral l with
  | some t => .ok (mk t)
  | none => .error .badOperand

/-- A line by its mnemonic, with the text after it and the operands in that text (R97, R98). -/
def parseCommand (mnemonic rest : List Char) (ops : List (List Char)) : Except ScriptError ScriptLine :=
  if mnemonic = ['N', 'O', 'P'] then noOperand .nop ops
  else if mnemonic = ['I', 'N', 'I', 'T'] then noOperand .init ops
  else if mnemonic = ['A', 'B', 'S', 'O', 'R', 'B'] then oneNumber .absorb ops
  else if mnemonic = ['F', 'I', 'N', 'A', 'L'] then noOperand .final ops
  else if mnemonic = ['R', 'D', 'D'] then oneNumber .rdd ops
  else if mnemonic = ['.', 'w', 'o', 'r', 'd'] then oneNumber .word ops
  else if mnemonic = ['A', 'B', 'S', 'O', 'R', 'B', 'S'] then oneLiteral .absorbs rest
  else if mnemonic = ['A', 'B', 'S', 'O', 'R', 'B', 'X'] then
    match ops.mapM parseGroup with
    | some bs => .ok (.absorbx bs)
    | none => .error .badOperand
  else if mnemonic = ['R', 'D', 'D', 'A', 'L', 'L'] then noOperand .rddall ops
  else if mnemonic = ['H', 'A', 'S', 'H'] then oneLiteral .hash rest
  else if mnemonic = ['R', 'E', 'S', 'E', 'T'] then noOperand .reset ops
  else .error .unknownMnemonic

/-- One line of text (R97): none for a line with nothing but a comment. -/
def parseLine (l : List Char) : Except ScriptError (Option ScriptLine) :=
  let body := skipSpaces l
  let mnemonic := body.takeWhile fun c => c ≠ ' ' && c ≠ '#'
  let rest := body.dropWhile fun c => c ≠ ' ' && c ≠ '#'
  if mnemonic.isEmpty then .ok none
  else
    match parseCommand mnemonic rest (wordsFrom [] (beforeComment rest)) with
    | .ok line => .ok (some line)
    | .error e => .error e

/-- The moves of a script, one line of text after the other (R97). -/
def assemble : List (List Char) → Except ScriptError (List HostMove)
  | [] => .ok []
  | l :: ls =>
    match parseLine l, assemble ls with
    | .ok none, rest => rest
    | .ok (some line), .ok ms =>
      match line.moves with
      | .ok m => .ok (m ++ ms)
      | .error e => .error e
    | .ok (some _), .error e => .error e
    | .error e, _ => .error e

end Sys2Proof.Machine
end

