-- ==== Sys2Proof/Machine/Reference.lean ====
section
/-! DEFINITION. The pure functions the spec gives beside the step machine: padding (R160, R161), the schedule of a chunk
(R180), compression (R203), one block (R223) and the whole-message digest (R270). No step calls them; claims compare the
machine with them. -/

namespace Sys2Proof.Machine

/-- zeros(n) = (55 − n) mod 64, the non-negative remainder (R161). -/
def zeros (n : Nat) : Nat := ((55 - (n : Int)) % 64).toNat

/-- padlen(n) = zeros(n) + 9, the bytes the padder adds (R161). -/
def padlen (n : Nat) : Nat := zeros n + 9

/-- nblocks(n) = floor((n + 8) / 64) + 1, the number of chunks (R161). -/
def nblocks (n : Nat) : Nat := (n + 8) / 64 + 1

/-- be64(v): the eight bytes of a 64-bit number, most significant first (R160). -/
def be64 (v : BitVec 64) : List Byte := List.ofFn fun j : Fin 8 => v.extractLsb' (56 - 8 * j.val) 8

/-- The bit-length 8n of a message of n bytes as the 64-bit length field, for n ≤ 2^61 − 1 (R160). From 2^61 bytes on the spec
gives no value, and the model's is a free one, never 8n wrapped modulo 2^64 (U11; DESIGN CHOICE, log entry 27). -/
def bitLength (n : Nat) : BitVec 64 := if n ≤ 2 ^ 61 - 1 then BitVec.ofNat 64 (8 * n) else Config.overlongLength n

/-- pad(m) = m ++ [0x80] ++ [0x00] * zeros(n) ++ be64(8n) (R160), for n ≤ 2^61 − 1; past that bound, where neither pad nor sha256
is defined by the spec, its last eight bytes are free (DESIGN CHOICE, log entry 27). -/
def pad (m : List Byte) : List Byte :=
  m ++ [0x80] ++ List.replicate (zeros m.length) 0x00 ++ be64 (bitLength m.length)

/-- Chunk j of a byte sequence P: the bytes P[64j .. 64j + 63] (R63). Past the end, where no rule looks, it holds zeros. -/
def chunkAt (p : List Byte) (j : Nat) : Vector Byte 64 := Vector.ofFn fun i => p.getD (64 * j + i.val) 0

/-- The first sixteen words of a chunk's schedule, big-endian (R180); the other places hold zeros until they are derived. -/
def firstWords (c : Vector Byte 64) : Vector Word 64 :=
  Vector.ofFn fun i => if hi : i.val < 16 then memRead c (4 * i.val) (by omega) else 0

/-- The schedule with n words derived after the first sixteen, in increasing index (R181). -/
def scheduleUpTo (c : Vector Byte 64) : Nat → Vector Word 64
  | 0 => firstWords c
  | n + 1 =>
    if hn : 16 + n < 64 then
      (scheduleUpTo c n).set (16 + n) (scheduleWord (scheduleUpTo c n) (16 + n) (by omega) hn) hn
    else scheduleUpTo c n

/-- schedule(c) (R180). -/
def schedule (c : Vector Byte 64) : Vector Word 64 := scheduleUpTo c 48

/-- r_n of R203: n rounds from r_0 = s. -/
def compressUpTo (s : Vector Word 8) (w : Vector Word 64) : Nat → Vector Word 8
  | 0 => s
  | n + 1 => if hn : n < 64 then mixRound (compressUpTo s w n) K[n] w[n] else compressUpTo s w n

/-- compress(s, w) = r_64 (R203). -/
def compress (s : Vector Word 8) (w : Vector Word 64) : Vector Word 8 := compressUpTo s w 64

/-- block(s, c) = accumulate(s, compress(s, schedule(c))) (R223). -/
def block (s : Vector Word 8) (c : Vector Byte 64) : Vector Word 8 := accumulate s (compress s (schedule c))

/-- s_j over the chunks of a byte sequence: s_0 = IV, s_(j+1) = block(s_j, c_j) (R270, R280). -/
def hashChunks (p : List Byte) : Nat → Vector Word 8
  | 0 => IV
  | j + 1 => block (hashChunks p j) (chunkAt p j)

/-- sha256(m) = serialize(s_N), N = nblocks(|m|), over the chunks of pad(m), for |m| ≤ 2^61 − 1 (R270); past that bound it rests
on pad's free length field (log entry 27). -/
def sha256 (m : List Byte) : Vector Byte 32 := serialize (hashChunks (pad m) (nblocks m.length))

end Sys2Proof.Machine
end

