-- ==== Sys2Proof/Safety.lean ====
section
/-! DEFINITION. What counts as a safe run, in the terms the claims use: the invariant of reachable states (R39), what two
states that no port can tell apart agree on (R40 to R42), and the few named conditions the claims are stated with. -/

namespace Sys2Proof.Machine

/-- The phases from LOADW to ACCUM, in which a chunk is processed (R27). -/
def chunkPhase (p : BitVec 4) : Bool := 3 ≤ p.toNat && p.toNat ≤ 7

/-- The phases in which the host steps: IDLE, OPEN and DONE (R12, R30). -/
def hostPhase (p : BitVec 4) : Bool := p == Phase.idle || p == Phase.opened || p == Phase.done

/-- The invariant of reachable states, R39 field by field, and one clause (`chunkLen`) that R39 follows from and does not
print: a chunk made of message bytes only ends where LEN is a multiple of 64. DEDUCED, log entry 19. -/
structure Inv (s : State) : Prop where
  /-- PHASE ≤ 9. -/
  phaseNamed : s.phase.toNat ≤ 9
  /-- ERRCODE ≤ 3. -/
  errcodeNamed : s.errcode.toNat ≤ 3
  /-- If PHASE is IDLE, OPEN, DONE or PAD then FILL ≤ 63. -/
  fillBound : (hostPhase s.phase = true ∨ s.phase = Phase.pad) → s.fill.toNat ≤ 63
  /-- If PHASE = OPEN then PADP = PNONE. -/
  openPadp : s.phase = Phase.opened → s.padp = .pnone
  /-- If PHASE = PAD then PADP ≠ PNONE, and if PADP = PL then 57 ≤ FILL ≤ 63. -/
  padPadp : s.phase = Phase.pad → s.padp ≠ .pnone ∧ (s.padp = .pl → 57 ≤ s.fill.toNat)
  /-- If PHASE = LOADW then T ≤ 15. -/
  loadwT : s.phase = Phase.loadw → s.t.toNat ≤ 15
  /-- If PHASE = EXPAND then 16 ≤ T ≤ 63. -/
  expandT : s.phase = Phase.expand → 16 ≤ s.t.toNat ∧ s.t.toNat ≤ 63
  /-- If PHASE = ROUND then T ≤ 63. -/
  roundT : s.phase = Phase.round → s.t.toNat ≤ 63
  /-- While a chunk is processed PADP ≠ P80 and FILL = 64. -/
  chunkFill : chunkPhase s.phase = true → s.padp ≠ .p80 ∧ s.fill = 64
  /-- If PHASE is SERIAL or DONE then PADP = PL and FILL = 0. -/
  tailPadp : s.phase = Phase.serial ∨ s.phase = Phase.done → s.padp = .pl ∧ s.fill = 0
  /-- If PHASE = OPEN then FILL = LEN mod 64. -/
  openFill : s.phase = Phase.opened → s.fill.toNat = s.len.toNat % 64
  /-- Not printed in R39: while a chunk of message bytes is processed, LEN is a multiple of 64. -/
  chunkLen : chunkPhase s.phase = true → s.padp = .pnone → s.len.toNat % 64 = 0

/-- States reachable from reset, whatever moves the host makes (10_state.md section 9). -/
inductive Reachable : State → Prop
  | start (script : List HostMove) : Reachable (State.reset.setScript script)
  | next {s t : State} : Reachable s → step s = .next t → Reachable t

/-- The host raises no reset, now or later: `rst` is low and no move of its script raises it. -/
def NoReset (s : State) : Prop := s.rst = false ∧ ∀ m ∈ s.script, m.raisesReset = false

/-- Two states that no port can tell apart, now or later (R40, R41, R42): they agree on the control registers, on what the
ports mean, on the host's moves, and on those array elements that a rule can still read before it is written again. They need
not agree on an array no rule has written since reset, on what an earlier chunk or message left behind, on `rsp` or `cmd` when
these are not valid, or on any free value still to be drawn. -/
structure SameVisible (s t : State) : Prop where
  phase : s.phase = t.phase
  errcode : s.errcode = t.errcode
  padp : s.padp = t.padp
  fill : s.fill = t.fill
  len : s.len = t.len
  index : s.t = t.t
  rst : s.rst = t.rst
  cmdValid : s.cmdValid = t.cmdValid
  cmd : s.cmdValid = true → s.cmd = t.cmd
  rspValid : s.rspValid = t.rspValid
  rsp : s.rspValid = true → s.rsp = t.rsp
  script : s.script = t.script
  /-- H has been written in every phase but IDLE. -/
  h : s.phase ≠ Phase.idle → s.h = t.h
  /-- BLK below FILL holds the current chunk's bytes, while it is filled. -/
  blkBelow : s.phase = Phase.opened ∨ s.phase = Phase.pad →
    ∀ (j : Nat) (hj : j < 64), j < s.fill.toNat → s.blk[j] = t.blk[j]
  /-- BLK holds the whole chunk while LOADW copies it. -/
  blk : s.phase = Phase.loadw → s.blk = t.blk
  /-- W below T holds the current chunk's schedule, while it is derived. -/
  wBelow : s.phase = Phase.loadw ∨ s.phase = Phase.expand →
    ∀ (j : Nat) (hj : j < 64), j < s.t.toNat → s.w[j] = t.w[j]
  /-- W holds the whole schedule when the rounds run. -/
  w : s.phase = Phase.loadregs ∨ s.phase = Phase.round → s.w = t.w
  /-- A holds the working registers from the first round to ACCUM. -/
  a : s.phase = Phase.round ∨ s.phase = Phase.accum → s.a = t.a
  /-- DIGEST has been written when it can be read. -/
  digest : s.phase = Phase.done → s.digest = t.digest

/-- What the host can see of a state on the output ports (R33, R35): `status`, `cmd_ready`, `rsp_valid`, and `rsp` when it is
valid. -/
def State.outputs (s : State) : BitVec 8 × Bool × Option Byte :=
  (s.status, s.cmdReady, if s.rspValid then some s.rsp else none)

/-- What the host sees on the output ports after each of the next n steps, in order. -/
def observations : Nat → State → List (BitVec 8 × Bool × Option Byte)
  | 0, _ => []
  | n + 1, s =>
    match step s with
    | .next s' => s'.outputs :: observations n s'
    | .fault _ => []
    | .refused _ => []

/-- The state of OPEN after the bytes of `m` were absorbed (R280, R62): LEN, FILL, the open chunk's bytes, PADP, and the Hash
State of the chunks completed so far. -/
structure Absorbed (m : List Byte) (s : State) : Prop where
  phase : s.phase = Phase.opened
  len : s.len.toNat = m.length
  fill : s.fill.toNat = m.length % 64
  blk : ∀ (i : Nat) (hi : i < 64), i < m.length % 64 → s.blk[i] = m.getD (64 * (m.length / 64) + i) 0
  padp : s.padp = .pnone
  h : s.h = hashChunks m (m.length / 64)

/-- A host that sends exactly the commands of `m`, with any number of waits and NOPs before, between and after them, and no
reset (R283): its moves with the waits and the NOPs left out are `m`'s. -/
def Sends (script : List HostMove) (commands : List Instr) : Prop :=
  (script.filter fun m => m ≠ .wait && m ≠ presentMove .nop) = commands.map presentMove

/-- The arrays are unchanged from s to t. -/
def SameArrays (s t : State) : Prop :=
  t.h = s.h ∧ t.a = s.a ∧ t.w = s.w ∧ t.blk = s.blk ∧ t.digest = s.digest

/-- The control registers are unchanged from s to t. -/
def SameControl (s t : State) : Prop :=
  t.fill = s.fill ∧ t.len = s.len ∧ t.t = s.t ∧ t.phase = s.phase ∧ t.padp = s.padp ∧ t.errcode = s.errcode

/-- What the host drives, and what it will, are unchanged from s to t. -/
def SameHost (s t : State) : Prop :=
  t.rst = s.rst ∧ t.cmdValid = s.cmdValid ∧ t.cmd = s.cmd ∧ t.script = s.script

/-- The outcome of an erroring command in s (R301): ERRCODE takes the error's code if it was 0, no other register or array is
written, PHASE is unchanged, and there is no response. -/
def RaisesOnly (e : Err) (s : State) (o : Outcome) : Prop :=
  ∃ t, o = .next t ∧ t.errcode = (if s.errcode = 0 then e.code else s.errcode) ∧ SameArrays s t ∧ t.fill = s.fill ∧
    t.len = s.len ∧ t.t = s.t ∧ t.phase = s.phase ∧ t.padp = s.padp ∧ SameHost s t ∧ t.rspValid = false

/-- n steps of the machine from s, by the host's interface. -/
def runFor (n : Nat) (s : State) : Outcome := Host.Core.run Sys2Proof.core n s

end Sys2Proof.Machine
end

