-- ==== Sys2Proof/Certificates/Slice0/Obligations.lean ====
section
/-! DEFINITION. The statements for the provers. Each docstring names the rule of spec/ it formalises. The free values and the
draw counter are bound by no statement: every statement holds whatever they are. -/

open Sys2Proof Sys2Proof.Machine

/-! ## Encoding -/

/-- R90 to R95, R93: an instruction's encoding decodes to that instruction, with every operand at every value a legal
encoding admits. -/
def Obligations.EncodedInstructionDecodesToItself : Prop :=
  ∀ i : Instr, i.wellFormed = true → decode (encode i) = .instr i

/-- R91, R93, R95: what decodes to an instruction is that instruction's one encoding, and the instruction is well-formed. -/
def Obligations.DecodingLosesNoBit : Prop :=
  ∀ (e : Encoding) (i : Instr), decode e = .instr i → i.wellFormed = true ∧ encode i = e

/-- V8 (95_test_vectors.md), R91: words written out from the spec's table decode to the commands they stand for, and PHASE
codes to micro-operations. A sanity statement. -/
def Obligations.DecoderReadsTheTablesWords : Prop :=
  decodeCmd 0b0000000000000000 = .instr .nop ∧ decodeCmd 0b0001000000000000 = .instr .init ∧
  decodeCmd 0b0010000001100001 = .instr (.absorb 0x61) ∧ decodeCmd 0b0011000000000000 = .instr .final ∧
  decodeCmd 0b0100000000011111 = .instr (.rdd 31) ∧ decodeCmd 0b0100000000100000 = .illegal .indexOutOfRange ∧
  decodePhase 0b0010 = .instr .pad ∧ decodePhase 0b0011 = .instr .loadw ∧ decodePhase 0b0100 = .instr .expand ∧
  decodePhase 0b0101 = .instr .loadregs ∧ decodePhase 0b0110 = .instr .round ∧ decodePhase 0b0111 = .instr .accum ∧
  decodePhase 0b1000 = .instr .serial

/-- R91: "a word w selects the row when `w AND mask = match`", for the five commands, with the operand each word carries. -/
def Obligations.CommandWordsMatchTheirMasks : Prop :=
  ∀ w : BitVec 16,
    (decodeCmd w = .instr .nop ↔ w &&& 0xFFFF = 0x0000) ∧ (decodeCmd w = .instr .init ↔ w &&& 0xFFFF = 0x1000) ∧
    (∀ b : Byte, decodeCmd w = .instr (.absorb b) ↔ w &&& 0xFF00 = 0x2000 ∧ b.toNat = w.toNat % 256) ∧
    (decodeCmd w = .instr .final ↔ w &&& 0xFFFF = 0x3000) ∧
    (∀ arg : Byte, decodeCmd w = .instr (.rdd arg) ↔ w &&& 0xFFE0 = 0x4000 ∧ arg.toNat = w.toNat % 256)

/-- R96 and R246: which words are illegal, exactly; accepting one, in any phase that accepts a command, raises ILLEGAL and
does nothing else; the all-zeros word is NOP and the all-ones word is illegal. -/
def Obligations.IllegalWordsAreTheReservedOnes : Prop :=
  (∀ w : BitVec 16, (∃ why, decodeCmd w = .illegal why) ↔
    (w.toNat / 256 % 16 ≠ 0 ∨ 5 ≤ w.toNat / 4096 ∨ (0x0001 ≤ w.toNat ∧ w.toNat ≤ 0x00FF) ∨
      (0x1001 ≤ w.toNat ∧ w.toNat ≤ 0x10FF) ∨ (0x3001 ≤ w.toNat ∧ w.toNat ≤ 0x30FF) ∨
      (0x4020 ≤ w.toNat ∧ w.toNat ≤ 0x40FF))) ∧
  (∀ s : State, s.rst = false → hostPhase s.phase = true → s.cmdValid = true →
    (∃ why, decodeCmd s.cmd = .illegal why) → RaisesOnly .illegal s (blockStep s)) ∧
  decodeCmd 0x0000 = .instr .nop ∧ ∃ why, decodeCmd 0xFFFF = .illegal why

/-! ## Host commands -/

/-- R241: NOP changes no register, not even ERRCODE, and gives no response; 0x0000 is its only word. -/
def Obligations.NopChangesNothing : Prop :=
  (∀ s : State, ∃ t, exec .nop s = .next t ∧ SameArrays s t ∧ SameControl s t ∧ SameHost s t ∧ t.rspValid = false) ∧
  encode .nop = .cmd16 0x0000 ∧
  ∀ n : Nat, 0x0001 ≤ n → n ≤ 0x00FF → decodeCmd (BitVec.ofNat 16 n) = .illegal .argNotZero

/-- R242: INIT writes H, FILL, LEN, PADP, ERRCODE and PHASE as the rule says, and neither A, W, BLK, DIGEST nor T; no response;
after it RDD raises PROTOCOL; it is never accepted while the block is busy; from the reset state it gives status 0x01. -/
def Obligations.InitOpensAMessage : Prop :=
  (∀ s : State, ∃ t, exec .init s = .next t ∧ t.h = IV ∧ t.fill = 0 ∧ t.len = 0 ∧ t.padp = .pnone ∧ t.errcode = 0 ∧
    t.phase = Phase.opened ∧ t.a = s.a ∧ t.w = s.w ∧ t.blk = s.blk ∧ t.digest = s.digest ∧ t.t = s.t ∧ SameHost s t ∧
    t.rspValid = false ∧ ∀ arg, RaisesOnly .protocol t (exec (.rdd arg) t)) ∧
  (∀ s : State, s.busy = true → select s ≠ .command .init) ∧
  encode .init = .cmd16 0x1000 ∧ ∃ t, exec .init State.reset = .next t ∧ t.status = 0x01

/-- R243: outside OPEN, ABSORB raises PROTOCOL; in OPEN at the length limit it raises LENOVF; below it, ABSORB b writes b at
BLK[FILL] and counts FILL and LEN; the 64th byte of a chunk enters LOADW with T = 0, any other leaves PHASE (and T) alone; nothing
else changes and there is no response. (FILL ≤ 63 is R39's.) After a 64th byte, with no reset, 130 steps end in OPEN with
FILL = 0. -/
def Obligations.AbsorbAppendsAByte : Prop :=
  (∀ (b : Byte) (s : State), (s.phase ≠ Phase.opened → RaisesOnly .protocol s (exec (.absorb b) s)) ∧
    (s.phase = Phase.opened → s.len.toNat = 2 ^ 61 - 1 → RaisesOnly .lenovf s (exec (.absorb b) s))) ∧
  (∀ (b : Byte) (s : State), s.phase = Phase.opened → s.len.toNat ≠ 2 ^ 61 - 1 → s.fill.toNat ≤ 63 →
    ∃ t, exec (.absorb b) s = .next t ∧
      (∀ (j : Nat) (hj : j < 64), t.blk[j] = if j = s.fill.toNat then b else s.blk[j]) ∧
      t.len.toNat = s.len.toNat + 1 ∧ t.fill.toNat = s.fill.toNat + 1 ∧
      (if s.fill.toNat = 63 then t.phase = Phase.loadw ∧ t.t = 0 else t.phase = Phase.opened ∧ t.t = s.t) ∧
      t.h = s.h ∧ t.a = s.a ∧ t.w = s.w ∧ t.digest = s.digest ∧ t.padp = s.padp ∧ t.errcode = s.errcode ∧ SameHost s t ∧
      t.rspValid = false ∧
      (s.fill.toNat = 63 → s.padp = .pnone → NoReset s →
        ∃ u, runFor 130 t = .next u ∧ u.phase = Phase.opened ∧ u.fill = 0)) ∧
  ∀ b : Byte, encode (.absorb b) = .cmd16 (0x2000 + b.zeroExtend 16)

/-- R305 ("the message of 2^61 − 1 bytes absorbed so far can still be finished with FINAL"), R306 and R307: at the length limit
ABSORB raises LENOVF and leaves the open message as it was, FINAL still starts its final period, and an ABSORB in DONE raises
PROTOCOL whatever LEN is. -/
def Obligations.LengthOverflowLeavesTheMessage : Prop :=
  (∀ (m : List Byte) (b : Byte) (s : State), Absorbed m s → m.length = 2 ^ 61 - 1 →
    RaisesOnly .lenovf s (exec (.absorb b) s) ∧
    ∀ t, exec (.absorb b) s = .next t → Absorbed m t ∧ ∃ u, exec .final t = .next u ∧ u.phase = Phase.pad ∧ u.padp = .p80 ∧
      u.len = s.len ∧ u.fill = s.fill ∧ u.blk = s.blk ∧ u.h = s.h) ∧
  ∀ (b : Byte) (s : State), s.phase = Phase.done → RaisesOnly .protocol s (exec (.absorb b) s)

/-- R244: in OPEN, FINAL sets PADP to P80 and PHASE to PAD and changes nothing else; outside OPEN it raises PROTOCOL. From the
state it leaves (with FILL = LEN mod 64, R39) and with no reset, the busy period is padlen(LEN) PAD steps, one or two chunk
processings of 130, and SERIAL, and ends in DONE. -/
def Obligations.FinalStartsTheFinalPeriod : Prop :=
  (∀ s : State, s.phase = Phase.opened →
    ∃ t, exec .final s = .next t ∧ t.padp = .p80 ∧ t.phase = Phase.pad ∧ SameArrays s t ∧ t.fill = s.fill ∧ t.len = s.len ∧
      t.t = s.t ∧ t.errcode = s.errcode ∧ SameHost s t ∧ t.rspValid = false ∧
      (NoReset s → s.fill.toNat = s.len.toNat % 64 →
        ∃ u, runFor (padlen s.len.toNat + (if s.len.toNat % 64 ≤ 55 then 130 else 260) + 1) t = .next u ∧
          u.phase = Phase.done)) ∧
  (∀ s : State, s.phase ≠ Phase.opened → RaisesOnly .protocol s (exec .final s)) ∧ encode .final = .cmd16 0x3000

/-- R245: in DONE, RDD i responds with DIGEST[i] and changes no register; outside DONE it raises PROTOCOL and there is no
response; a word 0x4020 to 0x40FF is illegal. -/
def Obligations.RddRespondsWithTheDigestByte : Prop :=
  (∀ (i : Nat) (hi : i < 32) (s : State),
    (s.phase = Phase.done → ∃ t, exec (.rdd (BitVec.ofNat 8 i)) s = .next t ∧ t.rspValid = true ∧ t.rsp = s.digest[i] ∧
      SameArrays s t ∧ SameControl s t ∧ SameHost s t) ∧
    (s.phase ≠ Phase.done → RaisesOnly .protocol s (exec (.rdd (BitVec.ofNat 8 i)) s)) ∧
    encode (.rdd (BitVec.ofNat 8 i)) = .cmd16 (BitVec.ofNat 16 (0x4000 + i))) ∧
  ∀ n : Nat, 32 ≤ n → n ≤ 255 → decodeCmd (BitVec.ofNat 16 (0x4000 + n)) = .illegal .indexOutOfRange

/-- R247: which command is permitted in which phase, over the states of R39's invariant. "ok" is a next state whose ERRCODE
is what it was (0 after INIT), or LENOVF for ABSORB at the length limit. Busy phases accept nothing. -/
def Obligations.CommandsAreLegalByPhase : Prop :=
  (∀ s : State, s.busy = true → select s ≠ .illegalWord ∧ ∀ i, select s ≠ .command i) ∧
  ∀ s : State, Inv s → hostPhase s.phase = true →
    (∃ t, exec .nop s = .next t ∧ t.errcode = s.errcode ∧ t.phase = s.phase) ∧
    (∃ t, exec .init s = .next t ∧ t.errcode = 0 ∧ t.phase = Phase.opened) ∧
    (∀ b, if s.phase = Phase.opened then
        (∃ t, exec (.absorb b) s = .next t ∧ t.errcode = s.errcode ∧ t.len = s.len + 1) ∨
          (s.len.toNat = 2 ^ 61 - 1 ∧ RaisesOnly .lenovf s (exec (.absorb b) s))
      else RaisesOnly .protocol s (exec (.absorb b) s)) ∧
    (if s.phase = Phase.opened then ∃ t, exec .final s = .next t ∧ t.errcode = s.errcode ∧ t.phase = Phase.pad
      else RaisesOnly .protocol s (exec .final s)) ∧
    (∀ arg, if s.phase = Phase.done then ∃ t, exec (.rdd arg) s = .next t ∧ t.errcode = s.errcode ∧ t.rspValid = true
      else RaisesOnly .protocol s (exec (.rdd arg) s)) ∧
    (s.rst = false → s.cmdValid = true → ∀ why, decodeCmd s.cmd = .illegal why → RaisesOnly .illegal s (blockStep s))

/-! ## The padder -/

/-- R163: PAD writes one byte at BLK[FILL], chosen by PADP and FILL, advances PADP and FILL, and completes the chunk at 64. -/
def Obligations.PadEmitsOneByte : Prop :=
  ∀ s : State, s.fill.toNat ≤ 63 →
    ∃ (v : Byte) (t : State), exec .pad s = .next t ∧
      (if s.padp = .p80 ∨ s.padp = .pnone then v = 0x80 ∧ t.padp = .pz
        else if s.padp = .pz ∧ s.fill.toNat ≠ 56 then v = 0x00 ∧ t.padp = .pz
        else v.toNat = 8 * s.len.toNat / 2 ^ (56 - 8 * (s.fill.toNat % 8)) % 256 ∧ t.padp = .pl) ∧
      (∀ (j : Nat) (hj : j < 64), t.blk[j] = if j = s.fill.toNat then v else s.blk[j]) ∧
      t.fill.toNat = s.fill.toNat + 1 ∧
      (if s.fill.toNat = 63 then t.phase = Phase.loadw ∧ t.t = 0 else t.phase = Phase.pad ∧ t.t = s.t) ∧
      t.h = s.h ∧ t.a = s.a ∧ t.w = s.w ∧ t.digest = s.digest ∧ t.len = s.len ∧ t.errcode = s.errcode ∧ SameHost s t ∧
      t.rspValid = false

/-- R162: L = LEN ‖ 000 is 8·LEN, and lenbyte(j) is byte j of L, most significant first. -/
def Obligations.LengthBytesSpellTheBitLength : Prop :=
  ∀ len : BitVec 61, (lengthField len).toNat = 8 * len.toNat ∧
    (∀ j : BitVec 3, (lenbyte len j).toNat = 8 * len.toNat / 2 ^ (56 - 8 * j.toNat) % 256) ∧
    lenbyte len 7 = len.extractLsb' 0 5 ++ (0 : BitVec 3) ∧ lenbyte len 0 = len.extractLsb' 53 8

/-- R161, with its consequences (the spec's inference: "Consequences [derived: from rule R160]"): zeros(n) is the least k with n + 1 + k ≡ 56 (mod 64), and is at most 63; the padded length is a multiple of 64,
nblocks(n) chunks of it; the padder adds between 9 and 72 bytes. -/
def Obligations.ZeroBytesAreTheFewestThatFit : Prop :=
  ∀ n : Nat, (n + 1 + zeros n) % 64 = 56 ∧ (∀ k, (n + 1 + k) % 64 = 56 → zeros n ≤ k) ∧ zeros n ≤ 63 ∧
    n + padlen n = 64 * nblocks n ∧ 9 ≤ padlen n ∧ padlen n ≤ 72 ∧
    ∀ m : List Byte, (pad m).length = 64 * nblocks m.length

/-- R166 (the spec's inference: "Both follow from rules R160 and R161"): the padded buffer's length in bits is a nonzero multiple of 512, and its last 8 bytes are the message's bit-length as
a big-endian integer; the empty message pads to 0x80 and 63 zero bytes. -/
def Obligations.PaddingEndsWithTheBitLength : Prop :=
  (∀ m : List Byte, m.length < 2 ^ 61 →
    8 * (pad m).length % 512 = 0 ∧ (pad m).length ≠ 0 ∧
    ((pad m).drop ((pad m).length - 8)).foldl (fun v b => 256 * v + b.toNat) 0 = 8 * m.length ∧
    (pad m).take m.length = m) ∧
  pad [] = [0x80] ++ List.replicate 63 0x00

/-! ## The block scheduler -/

/-- R183: LOADW, for 0 ≤ T ≤ 15, writes the big-endian word BLK[4T..4T+3] at W[T], counts T, and goes to EXPAND after index
15; nothing else changes. -/
def Obligations.LoadwCopiesABigEndianWord : Prop :=
  ∀ (s : State) (ht : s.t.toNat ≤ 15),
    ∃ t, exec .loadw s = .next t ∧
      (∀ (i : Nat) (hi : i < 64), i ≠ s.t.toNat → t.w[i] = s.w[i]) ∧
      (∀ (i : Nat) (hi : i ≤ 15), i = s.t.toNat → (t.w[i]'(by omega)).toNat =
        2 ^ 24 * (s.blk[4 * i]'(by omega)).toNat + 2 ^ 16 * (s.blk[4 * i + 1]'(by omega)).toNat +
          2 ^ 8 * (s.blk[4 * i + 2]'(by omega)).toNat + (s.blk[4 * i + 3]'(by omega)).toNat) ∧
      t.t.toNat = s.t.toNat + 1 ∧ t.phase = (if s.t.toNat = 15 then Phase.expand else Phase.loadw) ∧
      t.h = s.h ∧ t.a = s.a ∧ t.blk = s.blk ∧ t.digest = s.digest ∧ t.fill = s.fill ∧ t.len = s.len ∧ t.padp = s.padp ∧
      t.errcode = s.errcode ∧ SameHost s t ∧ t.rspValid = false

/-- R184: EXPAND, for 16 ≤ T ≤ 63, writes W[T-16] + σ0(W[T-15]) + W[T-7] + σ1(W[T-2]) modulo 2^32 at W[T], counts T, and goes to
LOADREGS after index 63; nothing else changes. -/
def Obligations.ExpandDerivesAWord : Prop :=
  ∀ s : State, 16 ≤ s.t.toNat → s.t.toNat ≤ 63 →
    ∃ t, exec .expand s = .next t ∧
      (∀ (i : Nat) (hi : i < 64), i ≠ s.t.toNat → t.w[i] = s.w[i]) ∧
      (∀ (i : Nat) (lo : 16 ≤ i) (hi : i < 64), i = s.t.toNat →
        t.w[i] = s.w[i - 16] + ssig0 s.w[i - 15] + s.w[i - 7] + ssig1 s.w[i - 2]) ∧
      t.t.toNat = s.t.toNat + 1 ∧ t.phase = (if s.t.toNat = 63 then Phase.loadregs else Phase.expand) ∧
      t.h = s.h ∧ t.a = s.a ∧ t.blk = s.blk ∧ t.digest = s.digest ∧ t.fill = s.fill ∧ t.len = s.len ∧ t.padp = s.padp ∧
      t.errcode = s.errcode ∧ SameHost s t ∧ t.rspValid = false

/-- R180: the schedule of a chunk: big-endian words 0 to 15, then the recurrence. -/
def Obligations.ScheduleMeetsItsRecurrence : Prop :=
  ∀ blk : Vector Byte 64,
    (∀ (i : Nat) (hi : i ≤ 15), ((schedule blk)[i]'(by omega)).toNat =
      2 ^ 24 * (blk[4 * i]'(by omega)).toNat + 2 ^ 16 * (blk[4 * i + 1]'(by omega)).toNat +
        2 ^ 8 * (blk[4 * i + 2]'(by omega)).toNat + (blk[4 * i + 3]'(by omega)).toNat) ∧
    ∀ (i : Nat) (lo : 16 ≤ i) (hi : i < 64), (schedule blk)[i] =
      (schedule blk)[i - 16] + ssig0 (schedule blk)[i - 15] + (schedule blk)[i - 7] + ssig1 (schedule blk)[i - 2]

/-- R185 (the spec's inference, "by induction on T"): 16 LOADW and 48 EXPAND steps after a chunk is complete, with no reset, PHASE is LOADREGS and W is the schedule of the
chunk in BLK, whatever the host presents meanwhile. -/
def Obligations.SchedulerComputesTheSchedule : Prop :=
  ∀ s : State, s.phase = Phase.loadw → s.t = 0 → NoReset s →
    ∃ t, runFor 64 s = .next t ∧ t.phase = Phase.loadregs ∧ t.w = schedule s.blk ∧ t.h = s.h ∧ t.blk = s.blk ∧
      t.padp = s.padp ∧ t.len = s.len

/-! ## The compression engine, the accumulator and the serializer -/

/-- R200: LOADREGS copies H into A, clears T and enters ROUND; nothing else changes. -/
def Obligations.LoadregsCopiesTheHashState : Prop :=
  ∀ s : State, ∃ t, exec .loadregs s = .next t ∧ (∀ (k : Nat) (hk : k < 8), t.a[k] = s.h[k]) ∧ t.t = 0 ∧
    t.phase = Phase.round ∧ t.h = s.h ∧ t.w = s.w ∧ t.blk = s.blk ∧ t.digest = s.digest ∧ t.fill = s.fill ∧ t.len = s.len ∧
    t.padp = s.padp ∧ t.errcode = s.errcode ∧ SameHost s t ∧ t.rspValid = false

/-- R201 and R202: ROUND, for T ≤ 63, forms T1 and T2 from the registers before the round and shifts the chain at once; it
counts T and goes to ACCUM after index 63; nothing else changes. -/
def Obligations.RoundMixesTheWorkingRegisters : Prop :=
  ∀ (s : State) (ht : s.t.toNat ≤ 63),
    ∃ (t1 t2 : Word) (t : State), exec .round s = .next t ∧
      t1 = s.a[7] + bsig1 s.a[4] + ch s.a[4] s.a[5] s.a[6] + K[s.t.toNat] + s.w[s.t.toNat] ∧
      t2 = bsig0 s.a[0] + maj s.a[0] s.a[1] s.a[2] ∧
      t.a[0] = t1 + t2 ∧ t.a[1] = s.a[0] ∧ t.a[2] = s.a[1] ∧ t.a[3] = s.a[2] ∧ t.a[4] = s.a[3] + t1 ∧ t.a[5] = s.a[4] ∧
      t.a[6] = s.a[5] ∧ t.a[7] = s.a[6] ∧
      t.t.toNat = s.t.toNat + 1 ∧ t.phase = (if s.t.toNat = 63 then Phase.accum else Phase.round) ∧
      t.h = s.h ∧ t.w = s.w ∧ t.blk = s.blk ∧ t.digest = s.digest ∧ t.fill = s.fill ∧ t.len = s.len ∧ t.padp = s.padp ∧
      t.errcode = s.errcode ∧ SameHost s t ∧ t.rspValid = false

/-- R204 (the spec's inference, "by induction on T"): LOADREGS and 64 ROUND steps, with no reset, leave compress(H, W) in A, and H and W as they were. -/
def Obligations.CompressionEngineComputesCompress : Prop :=
  ∀ s : State, s.phase = Phase.loadregs → NoReset s →
    ∃ t, runFor 65 s = .next t ∧ t.phase = Phase.accum ∧ t.a = compress s.h s.w ∧ t.h = s.h ∧ t.w = s.w

/-- R220: ACCUM adds each working register to its word of H modulo 2^32, clears FILL, and chooses the next phase by PADP alone;
nothing else changes. -/
def Obligations.AccumFoldsTheRegistersIntoH : Prop :=
  ∀ s : State, ∃ t, exec .accum s = .next t ∧
    (∀ (k : Nat) (hk : k < 8), (t.h[k]).toNat = ((s.h[k]).toNat + (s.a[k]).toNat) % 2 ^ 32) ∧ t.fill = 0 ∧
    t.phase = (if s.padp = .pnone then Phase.opened else if s.padp = .pl then Phase.serial else Phase.pad) ∧
    t.a = s.a ∧ t.w = s.w ∧ t.blk = s.blk ∧ t.digest = s.digest ∧ t.len = s.len ∧ t.t = s.t ∧ t.padp = s.padp ∧
    t.errcode = s.errcode ∧ SameHost s t ∧ t.rspValid = false

/-- R225 and R276 (1), both the spec's inferences ("[derived: from …]"): a chunk period, 130 steps with no reset from the state a completed chunk leaves, takes H to
block(H, BLK), clears FILL and ends in OPEN, PAD or SERIAL by PADP. -/
def Obligations.ChunkPeriodAppliesBlock : Prop :=
  ∀ s : State, s.phase = Phase.loadw → s.t = 0 → NoReset s →
    ∃ t, runFor 130 s = .next t ∧ t.h = block s.h s.blk ∧ t.fill = 0 ∧ t.padp = s.padp ∧ t.len = s.len ∧
      t.errcode = s.errcode ∧
      t.phase = (if s.padp = .pnone then Phase.opened else if s.padp = .pl then Phase.serial else Phase.pad)

/-- R222 and R224: SERIAL writes DIGEST[4k + j] with bits 31 − 8j to 24 − 8j of H[k] and enters DONE; nothing else changes. -/
def Obligations.SerialWritesTheDigestBigEndian : Prop :=
  ∀ s : State, ∃ t, exec .serial s = .next t ∧
    (∀ (k j : Nat) (hk : k < 8) (hj : j < 4),
      (t.digest[4 * k + j]).toNat = (s.h[k]).toNat / 2 ^ (24 - 8 * j) % 256) ∧ t.phase = Phase.done ∧
    t.h = s.h ∧ t.a = s.a ∧ t.w = s.w ∧ t.blk = s.blk ∧ t.fill = s.fill ∧ t.len = s.len ∧ t.t = s.t ∧ t.padp = s.padp ∧
    t.errcode = s.errcode ∧ SameHost s t ∧ t.rspValid = false

/-! ## Word arithmetic -/

/-- R120: the sum modulo 2^32; it does not depend on the order of the operands nor on where the reduction is applied (the
spec's inference: "[derived: from modular arithmetic]"); the three corner cases. -/
def Obligations.AdditionWrapsInAnyOrder : Prop :=
  (∀ xs ys : List Word, xs.Perm ys → add32 xs = add32 ys) ∧
  (∀ (x : Word) (xs : List Word), add32 (x :: xs) = x + add32 xs ∧ (add32 (x :: xs)).toNat = ((x :: xs).map BitVec.toNat).sum % 2 ^ 32) ∧
  add32 [0xFFFFFFFF, 1] = 0 ∧ add32 [0x80000000, 0x80000000] = 0 ∧
  add32 [0xFFFFFFFF, 0xFFFFFFFF, 0xFFFFFFFF, 0xFFFFFFFF, 0xFFFFFFFF] = 0xFFFFFFFB

/-- R121 and R122: bit i of rotr(x, n) is bit (i + n) mod 32 of x, and rotr is the masked "or" of two shifts of unbounded
integers; bit i of shr(x, n) is bit i + n of x, and 0 past the top;
shr is also the quotient by 2^n. -/
def Obligations.RotationKeepsBitsAndShiftDropsThem : Prop :=
  ∀ (x : Word) (n i : Nat), 1 ≤ n → n ≤ 31 → i ≤ 31 →
    (rotr x n).getLsbD i = x.getLsbD ((i + n) % 32) ∧
    (rotr x n).toNat = ((x.toNat >>> n) ||| (x.toNat <<< (32 - n))) % 2 ^ 32 ∧
    (shr x n).getLsbD i = (if i + n ≤ 31 then x.getLsbD (i + n) else false) ∧ (shr x n).toNat = x.toNat / 2 ^ n

/-- R125 to R128, bit by bit: each of the four functions is the exclusive or of three bits of its operand. -/
def Obligations.SigmasMixThreeBits : Prop :=
  ∀ (x : Word) (i : Nat), i ≤ 31 →
    (ssig0 x).getLsbD i =
      (x.getLsbD ((i + 7) % 32) ^^ x.getLsbD ((i + 18) % 32) ^^ (decide (i + 3 ≤ 31) && x.getLsbD (i + 3))) ∧
    (ssig1 x).getLsbD i =
      (x.getLsbD ((i + 17) % 32) ^^ x.getLsbD ((i + 19) % 32) ^^ (decide (i + 10 ≤ 31) && x.getLsbD (i + 10))) ∧
    (bsig0 x).getLsbD i = (x.getLsbD ((i + 2) % 32) ^^ x.getLsbD ((i + 13) % 32) ^^ x.getLsbD ((i + 22) % 32)) ∧
    (bsig1 x).getLsbD i = (x.getLsbD ((i + 6) % 32) ^^ x.getLsbD ((i + 11) % 32) ^^ x.getLsbD ((i + 25) % 32))

/-- R129 and R130: Ch chooses y's bit where x has a 1 and z's where it has a 0; a bit of Maj is 1 exactly when at least two of
the three operands have it set (the spec's inference: "[derived: from the definition, by the eight cases]"). -/
def Obligations.ChooseAndMajorityAreBitwise : Prop :=
  ∀ (x y z : Word) (i : Nat), i ≤ 31 →
    (ch x y z).getLsbD i = (if x.getLsbD i then y.getLsbD i else z.getLsbD i) ∧
    ((maj x y z).getLsbD i = true ↔ 2 ≤ (x.getLsbD i).toNat + (y.getLsbD i).toNat + (z.getLsbD i).toNat)

/-- R131 and R132, by the checks that 95_test_vectors.md gives "for a transcription slip in a model's tables": entries of both ROMs,
and the exclusive or and the sum of all the words of each. The values are the spec's "from general knowledge" (log entry 11). -/
def Obligations.RomsPassTheTranscriptionChecks : Prop :=
  K[0] = 0x428a2f98 ∧ K[1] = 0x71374491 ∧ K[15] = 0xc19bf174 ∧ K[16] = 0xe49b69c1 ∧ K[31] = 0x14292967 ∧
  K[32] = 0x27b70a85 ∧ K[62] = 0xbef9a3f7 ∧ K[63] = 0xc67178f2 ∧ IV[0] = 0x6a09e667 ∧ IV[7] = 0x5be0cd19 ∧
  K.toList.foldl (· ^^^ ·) 0 = 0x95c49cf5 ∧ add32 K.toList = 0x941d1755 ∧
  IV.toList.foldl (· ^^^ ·) 0 = 0xc62760eb ∧ add32 IV.toList = 0x6ea8df67

/-! ## The machine: selection, reset, ports -/

/-- R12, R93, R240, R246: without reset, step is exec of the micro-operation that PHASE selects, or, in IDLE, OPEN and DONE,
of the command the word on the port decodes to; afterwards the host drives the ports. A busy block leaves the command on the
port; acceptance takes it off. With nothing presented a host phase only waits (log entry 7), and a reserved PHASE has no step (log
entry 8). -/
def Obligations.StepRunsTheDecodedInstruction : Prop :=
  ∀ s : State, s.rst = false →
    (∀ i, decodePhase s.phase = .instr i → step s = afterStep s.cmdValid (exec i s)) ∧
    (∀ i, hostPhase s.phase = true → s.cmdValid = true → decodeCmd s.cmd = .instr i →
      step s = afterStep false (exec i s)) ∧
    (∀ why, hostPhase s.phase = true → s.cmdValid = true → decodeCmd s.cmd = .illegal why →
      step s = .next ((s.raiseErr .illegal).driveHost false)) ∧
    (hostPhase s.phase = true → s.cmdValid = false → step s = .next (s.noResponse.driveHost false)) ∧
    (10 ≤ s.phase.toNat → step s = .fault .reservedPhase)

/-- R43 and R340: the reset state, and the state after a step with rst = 1 from any state whatever, have the control registers,
cmd_ready, rsp_valid and status of R43; a command presented beside rst is not accepted and a micro-operation due is not
performed. The arrays, unspecified, are not mentioned. -/
def Obligations.ResetGivesTheResetState : Prop :=
  (State.reset.phase = Phase.idle ∧ State.reset.errcode = 0 ∧ State.reset.padp = .pnone ∧ State.reset.fill = 0 ∧
    State.reset.len = 0 ∧ State.reset.t = 0 ∧ State.reset.cmdReady = true ∧ State.reset.rspValid = false ∧
    State.reset.status = 0x00) ∧
  ∀ s : State, s.rst = true → ∃ t, step s = .next t ∧ t.phase = Phase.idle ∧ t.errcode = 0 ∧ t.padp = .pnone ∧ t.fill = 0 ∧
    t.len = 0 ∧ t.t = 0 ∧ t.cmdReady = true ∧ t.rspValid = false ∧ t.status = 0x00

/-- R30 (codes 10 to 15), U2: a state with a reserved PHASE has no step other than reset. -/
def Obligations.ReservedPhasesOnlyReset : Prop :=
  ∀ s : State, 10 ≤ s.phase.toNat →
    (s.rst = false → step s = .fault .reservedPhase) ∧ (s.rst = true → ∃ t, step s = .next t ∧ t.phase = Phase.idle)

/-- R183, R184, R201 (their totality clauses), R25 and R27: an index outside an array stops by name (the model's choice
and inference, log entry 8). -/
def Obligations.IndicesOutsideTheArraysStop : Prop :=
  ∀ s : State,
    (16 ≤ s.t.toNat → exec .loadw s = .fault .loadIndex) ∧
    ((s.t.toNat < 16 ∨ 64 ≤ s.t.toNat) → exec .expand s = .fault .expandIndex) ∧
    (64 ≤ s.t.toNat → exec .round s = .fault .roundIndex) ∧
    (64 ≤ s.fill.toNat → exec .pad s = .fault .blkIndex) ∧
    (64 ≤ s.fill.toNat → s.phase = Phase.opened → s.len.toNat ≠ 2 ^ 61 - 1 → ∀ b, exec (.absorb b) s = .fault .blkIndex)

/-- R33 and R34: the layout of `status`, and `cmd_ready`, DV and ERR beside it. -/
def Obligations.StatusShowsBusyErrorAndPhase : Prop :=
  ∀ s : State,
    (s.status.getLsbD 7 = true ↔ 2 ≤ s.phase.toNat ∧ s.phase.toNat ≤ 8) ∧ s.status.extractLsb' 4 3 = s.errcode ∧
    s.status.extractLsb' 0 4 = s.phase ∧ s.cmdReady = !s.status.getLsbD 7 ∧ (s.dv = true ↔ s.phase.toNat = 9) ∧
    (s.err = true ↔ s.errcode.toNat ≠ 0)

/-- R240: a command presented while the block is busy is neither executed, nor queued, nor dropped, nor an error: the step is the
micro-operation alone, and the command stays on the port unchanged. -/
def Obligations.BusyBlockHoldsTheCommand : Prop :=
  ∀ s t : State, s.busy = true → s.cmdValid = true → s.rst = false → step s = .next t →
    t.cmdValid = true ∧ t.cmd = s.cmd ∧ t.errcode = s.errcode ∧ t.rspValid = false ∧
    ∃ i u, decodePhase s.phase = .instr i ∧ exec i s = .next u ∧ SameArrays u t ∧ SameControl u t

/-- R322, R240: in IDLE, OPEN and DONE without a command or reset nothing changes and there is no response; that a
step passes there is the model's inference, log entry 7. -/
def Obligations.WaitingKeepsAllState : Prop :=
  ∀ s : State, hostPhase s.phase = true → s.rst = false → s.cmdValid = false →
    ∃ t, step s = .next t ∧ SameArrays s t ∧ SameControl s t ∧ t.rspValid = false

/-- R308, R32, R304: ERRCODE keeps the first error. It changes only from 0, to 1, 2 or 3, in a step that accepts a command, or to
0 in a step that accepts INIT or resets; and both of these do clear it. -/
def Obligations.FirstErrorIsKeptUntilInitOrReset : Prop :=
  ∀ s t : State, step s = .next t →
    (t.errcode = s.errcode ∨ (s.errcode = 0 ∧ 1 ≤ t.errcode.toNat ∧ t.errcode.toNat ≤ 3 ∧ s.busy = false ∧ s.cmdValid = true) ∨
      (t.errcode = 0 ∧ (select s = .reset ∨ select s = .command .init))) ∧
    ((select s = .reset ∨ select s = .command .init) → t.errcode = 0)

/-- R35, R245: rsp_valid = 1 only after a step that accepts RDD in DONE, and then rsp is the byte of DIGEST it names; that
a state holds the last step's response is the model's choice, log entry 10. -/
def Obligations.OnlyRddResponds : Prop :=
  ∀ s t : State, step s = .next t → t.rspValid = true →
    ∃ (i : Nat) (hi : i < 32), select s = .command (.rdd (BitVec.ofNat 8 i)) ∧ s.phase = Phase.done ∧ s.rst = false ∧
      t.rsp = s.digest[i]

/-- The table of 10_state.md section 1, "written by": in a step without reset, a register changes only in the steps that the
table names for it. -/
def Obligations.RegistersAreWrittenOnlyByTheirSteps : Prop :=
  ∀ s t : State, step s = .next t → s.rst = false →
    (t.h ≠ s.h → select s = .command .init ∨ select s = .micro .accum) ∧
    (t.a ≠ s.a → select s = .micro .loadregs ∨ select s = .micro .round) ∧
    (t.w ≠ s.w → select s = .micro .loadw ∨ select s = .micro .expand) ∧
    (t.blk ≠ s.blk → (∃ b, select s = .command (.absorb b)) ∨ select s = .micro .pad) ∧
    (t.digest ≠ s.digest → select s = .micro .serial) ∧
    (t.fill ≠ s.fill → select s = .command .init ∨ (∃ b, select s = .command (.absorb b)) ∨ select s = .micro .pad ∨
      select s = .micro .accum) ∧
    (t.len ≠ s.len → select s = .command .init ∨ ∃ b, select s = .command (.absorb b)) ∧
    (t.t ≠ s.t → (∃ b, select s = .command (.absorb b)) ∨ select s = .micro .pad ∨ select s = .micro .loadw ∨
      select s = .micro .expand ∨ select s = .micro .loadregs ∨ select s = .micro .round) ∧
    (t.padp ≠ s.padp → select s = .command .init ∨ select s = .command .final ∨ select s = .micro .pad)

/-- R275, the transition table (the spec's inference: "[derived: from rules R241 to R246 …]"): the phase after a step and the
control registers it writes, row by row. -/
def Obligations.PhaseFollowsTheTransitionTable : Prop :=
  ∀ s t : State, step s = .next t →
    (s.rst = true → t.phase = Phase.idle ∧ t.errcode = 0 ∧ t.padp = .pnone ∧ t.fill = 0 ∧ t.len = 0 ∧ t.t = 0) ∧
    (select s = .command .init → t.phase = Phase.opened ∧ t.fill = 0 ∧ t.len = 0 ∧ t.padp = .pnone ∧ t.errcode = 0 ∧ t.t = s.t) ∧
    (select s = .command .nop ∨ select s = .wait → SameControl s t) ∧
    (∀ b, select s = .command (.absorb b) → s.phase = Phase.opened → s.len.toNat ≠ 2 ^ 61 - 1 →
      t.len = s.len + 1 ∧ t.padp = s.padp ∧ t.errcode = s.errcode ∧ t.fill = s.fill + 1 ∧
      (if s.fill.toNat = 63 then t.phase = Phase.loadw ∧ t.t = 0 else t.phase = Phase.opened ∧ t.t = s.t)) ∧
    (select s = .command .final → s.phase = Phase.opened → t.phase = Phase.pad ∧ t.padp = .p80 ∧ t.fill = s.fill ∧
      t.len = s.len ∧ t.t = s.t ∧ t.errcode = s.errcode) ∧
    (∀ arg, select s = .command (.rdd arg) → s.phase = Phase.done → SameControl s t) ∧
    (∀ e : Err,
      ((e = .illegal ∧ select s = .illegalWord) ∨
        (e = .protocol ∧ s.phase ≠ Phase.opened ∧ (select s = .command .final ∨ ∃ b, select s = .command (.absorb b))) ∨
        (e = .protocol ∧ s.phase ≠ Phase.done ∧ ∃ arg, select s = .command (.rdd arg)) ∨
        (e = .lenovf ∧ s.phase = Phase.opened ∧ s.len.toNat = 2 ^ 61 - 1 ∧ ∃ b, select s = .command (.absorb b))) →
      t.phase = s.phase ∧ t.fill = s.fill ∧ t.len = s.len ∧ t.t = s.t ∧ t.padp = s.padp ∧
        t.errcode = (if s.errcode = 0 then e.code else s.errcode)) ∧
    (s.rst = false → s.busy = true → t.len = s.len ∧ t.errcode = s.errcode ∧ (s.phase ≠ Phase.pad → t.padp = s.padp) ∧
      (s.phase ≠ Phase.pad → s.phase ≠ Phase.accum → t.fill = s.fill)) ∧
    (s.rst = false →
      (s.phase = Phase.pad → t.fill = s.fill + 1 ∧ t.padp = (padSelect s.padp s.fill s.len).2 ∧
        (if s.fill.toNat = 63 then t.phase = Phase.loadw ∧ t.t = 0 else t.phase = Phase.pad ∧ t.t = s.t)) ∧
      (s.phase = Phase.loadw → t.t = s.t + 1 ∧ t.phase = if s.t.toNat = 15 then Phase.expand else Phase.loadw) ∧
      (s.phase = Phase.expand → t.t = s.t + 1 ∧ t.phase = if s.t.toNat = 63 then Phase.loadregs else Phase.expand) ∧
      (s.phase = Phase.loadregs → t.t = 0 ∧ t.phase = Phase.round) ∧
      (s.phase = Phase.round → t.t = s.t + 1 ∧ t.phase = if s.t.toNat = 63 then Phase.accum else Phase.round) ∧
      (s.phase = Phase.accum → t.fill = 0 ∧ t.t = s.t ∧ t.phase =
        if s.padp = .pnone then Phase.opened else if s.padp = .pl then Phase.serial else Phase.pad) ∧
      (s.phase = Phase.serial → t.phase = Phase.done ∧ t.t = s.t))

/-- R275, after its table (the spec's inference: "There is no other transition. In particular: …"): nothing leaves IDLE but INIT, nothing enters IDLE but reset, nothing enters DONE but SERIAL, nothing
enters SERIAL but the ACCUM of a chunk that ends with the length field, and a busy phase is left only by its own
micro-operation or by reset. -/
def Obligations.PhasesAreEnteredOnlyByTheirOwnSteps : Prop :=
  ∀ s t : State, step s = .next t → t.phase ≠ s.phase →
    (s.phase = Phase.idle → select s = .command .init) ∧ (t.phase = Phase.idle → select s = .reset) ∧
    (t.phase = Phase.done → select s = .micro .serial) ∧
    (t.phase = Phase.serial → select s = .micro .accum ∧ s.padp = .pl) ∧
    (s.busy = true → select s = .reset ∨ ∃ i, decodePhase s.phase = .instr i ∧ select s = .micro i)

/-- R13, R35: no instruction's meaning touches what the host drives: the ports rst, cmd_valid and cmd, and the host's moves to
come. -/
def Obligations.MeaningsLeaveTheHostAlone : Prop :=
  ∀ (i : Instr) (s t : State), exec i s = .next t → SameHost s t

/-! ## Invariants and whole runs -/

/-- R39 (the spec's inference, "by induction over steps") with the clause of log entry 19, at the reset state, whatever moves the host will make. -/
def Obligations.ResetMeetsTheInvariant : Prop :=
  ∀ script : List HostMove, Inv (State.reset.setScript script)

/-- R39 (the spec's inference, "by induction over steps") with the clause of log entry 19: every step keeps the invariant, from every state that meets it, whatever the host
does. -/
def Obligations.EveryStepKeepsTheInvariant : Prop :=
  ∀ s t : State, Inv s → step s = .next t → Inv t

/-- R26, and R226 and the last clause of R40 (the spec's inferences): every step keeps that, while PHASE is DONE, DIGEST is the serialisation
of H. -/
def Obligations.DoneHoldsTheSerialisedHashState : Prop :=
  ∀ s t : State, (s.phase = Phase.done → s.digest = serialize s.h) → step s = .next t → t.phase = Phase.done →
    t.digest = serialize t.h

/-- R39 (the spec's inference) with the clause of log entry 19, "in every reachable state": whatever moves the host makes from
reset; and such a state always has a step. -/
def Obligations.ReachableStatesMeetTheInvariant : Prop :=
  ∀ s : State, Reachable s → Inv s ∧ ∃ t, step s = .next t

/-- R64, R39, R277: every state that meets the invariant has a step; no index is out of range and no fault is raised. -/
def Obligations.InvariantStatesAlwaysStep : Prop :=
  ∀ s : State, Inv s → ∃ t, step s = .next t

/-- R277, with R276's bound (the spec's inference: "[derived: from rule R275 …]"): from every busy state of the invariant, with no reset, the block stops being busy within 333 steps. -/
def Obligations.BusyPeriodsEndWithin333Steps : Prop :=
  ∀ s : State, Inv s → s.busy = true → NoReset s → ∃ (k : Nat) (t : State), k ≤ 333 ∧ runFor k s = .next t ∧ t.busy = false

/-- R40 to R42 (the spec's inferences, "[derived: from rule R40]"): what no rule can read again before it is written decides nothing. Two states that agree on the rest step to two
states that agree on the rest, or stop for the same reason; and their outputs are equal. -/
def Obligations.UnwrittenStateIsNeverObserved : Prop :=
  ∀ s t : State, SameVisible s t → s.outputs = t.outputs ∧
    match step s, step t with
    | .next s', .next t' => SameVisible s' t'
    | .fault f, .fault g => f = g
    | .refused f, .refused g => f = g
    | _, _ => False

/-- R41, U1: after a reset step from any two states, with the same moves of the host to come, every output of every later step
is the same, whatever the arrays held and whatever free values are drawn. -/
def Obligations.ResetForgetsEverything : Prop :=
  ∀ s t : State, s.rst = true → t.rst = true → s.script = t.script → ∀ n, observations n s = observations n t

/-- R280 (the spec's inference, "by induction on n") and R62, one byte at a time: INIT gives the state of the empty message; NOP and
commands that raise errors leave what was absorbed; if the bytes of m are absorbed and ABSORB b is on the port, then some steps
later, with no reset, the block is back in OPEN with the bytes of m and b absorbed. -/
def Obligations.AbsorbedBytesAreTheMessage : Prop :=
  (∀ s t : State, exec .init s = .next t → Absorbed [] t) ∧
  (∀ (m : List Byte) (s t : State), Absorbed m s →
    (exec .nop s = .next t ∨ (∃ arg, exec (.rdd arg) s = .next t) ∨ ∃ e, t = s.raiseErr e) → Absorbed m t) ∧
  ∀ (m : List Byte) (b : Byte) (s : State), Absorbed m s → m.length < 2 ^ 61 - 1 → NoReset s → s.cmdValid = true →
    s.cmd = 0x2000 + b.zeroExtend 16 →
    ∃ (k : Nat) (t : State), 1 ≤ k ∧ k ≤ 131 ∧ runFor k s = .next t ∧ Absorbed (m ++ [b]) t ∧ t.errcode = s.errcode

/-- R164 (the spec's inference, "by induction on the number of PAD steps") with R63: after FINAL for the message m, with no reset,
the first chunk the padder completes is the chunk of pad(m) that holds the last bytes of m, and when the last chunk is folded in,
PHASE is SERIAL and H is the Hash State over all nblocks chunks of pad(m). -/
def Obligations.PadderCompletesThePaddedMessage : Prop :=
  ∀ (m : List Byte) (s t : State), Absorbed m s → m.length ≤ 2 ^ 61 - 1 → NoReset s → exec .final s = .next t →
    (∃ u, runFor (if m.length % 64 ≤ 55 then padlen m.length else 64 - m.length % 64) t = .next u ∧ u.phase = Phase.loadw ∧
      u.t = 0 ∧ u.blk = chunkAt (pad m) (m.length / 64)) ∧
    ∃ u, runFor (padlen m.length + (if m.length % 64 ≤ 55 then 130 else 260)) t = .next u ∧ u.phase = Phase.serial ∧
      u.h = hashChunks (pad m) (nblocks m.length)

/-- R283 (the spec's inference, "[derived: from rule R280 …]"), for every message the block can hold: from any state of the invariant that is not busy, with nothing on the port, a host
that issues INIT, the bytes in order, and FINAL, with only waits and NOPs in between, brings the block to DONE with ERRCODE = 0
and DIGEST = sha256(m), and there RDD i responds with its byte i. -/
def Obligations.BlockComputesSha256 : Prop :=
  ∀ (m : List Byte) (s : State), m.length ≤ 2 ^ 61 - 1 → Inv s → hostPhase s.phase = true → s.rst = false →
    s.cmdValid = false → Sends s.script (sendCommands m) →
    ∃ (n : Nat) (t : State), runFor n s = .next t ∧ t.phase = Phase.done ∧ t.errcode = 0 ∧ t.digest = sha256 m ∧
      ∀ (i : Nat) (hi : i < 32), ∃ u, exec (.rdd (BitVec.ofNat 8 i)) t = .next u ∧ u.rspValid = true ∧ u.rsp = (sha256 m)[i]

/-! ## The host adapter -/

/-- R310, R312, R313: what is neither text nor bytes is InvalidInputType, a message above 2^61 − 1 bytes is refused too (its error's
name is the model's choice, log entry 25), both before any command is issued; every other input, the empty one among them, gives the commands INIT, ABSORBs, FINAL, RDD 0 to 31. -/
def Obligations.AdapterRefusesOnlyWhatItMust : Prop :=
  ∀ textToBytes : List Char → List Byte,
    hashEntry textToBytes .other = .error .invalidInputType ∧
    (∀ m : List Byte, 2 ^ 61 - 1 < m.length → hashEntry textToBytes (.rawBytes m) = .error .messageTooLong) ∧
    (∀ m : List Byte, m.length ≤ 2 ^ 61 - 1 →
      hashEntry textToBytes (.rawBytes m) = .ok ((sendCommands m ++ readCommands).map presentMove)) ∧
    ∀ t : List Char, hashEntry textToBytes (.text t) = hashEntry textToBytes (.rawBytes (textToBytes t))

/-- R310 with R283 (the spec's inference): run from the reset state (or any state of the invariant that is not busy, with nothing on the port), the
adapter's moves make the block return the 32 bytes of the digest in order, and nothing else, ever. -/
def Obligations.AdapterReturnsTheDigest : Prop :=
  ∀ (textToBytes : List Char → List Byte) (m : List Byte) (moves : List HostMove) (s : State),
    hashEntry textToBytes (.rawBytes m) = .ok moves → Inv s → hostPhase s.phase = true → s.rst = false →
    s.cmdValid = false → s.script = moves → ∃ n₀, ∀ n, n₀ ≤ n → responses n s = (sha256 m).toList

/-- R97 and R98: the words of a script's lines, an operand out of range being an error of the script, and the expansion of `HASH`:
the adapter's commands for the characters' ASCII codes. That the line `RESET` stands for the move `.reset`, which waits until no
command is on the port, is the model's choice and not R98's, which says only that the host raises `rst` for one step (DESIGN
CHOICE, log entry 20). -/
def Obligations.ScriptLinesStandForTheirWords : Prop :=
  ScriptLine.nop.moves = .ok [.present 0x0000] ∧ ScriptLine.init.moves = .ok [.present 0x1000] ∧
  ScriptLine.final.moves = .ok [.present 0x3000] ∧ ScriptLine.reset.moves = .ok [.reset] ∧
  (∀ b : Nat, (ScriptLine.absorb b).moves =
    if b ≤ 255 then .ok [.present (BitVec.ofNat 16 (0x2000 + b))] else .error .outOfRange) ∧
  (∀ i : Nat, (ScriptLine.rdd i).moves =
    if i ≤ 31 then .ok [.present (BitVec.ofNat 16 (0x4000 + i))] else .error .outOfRange) ∧
  (∀ w : Nat, (ScriptLine.word w).moves = if w ≤ 0xFFFF then .ok [.present (BitVec.ofNat 16 w)] else .error .outOfRange) ∧
  ∀ text : List Char, (∀ c ∈ text, literalChar c = true) →
    (ScriptLine.hash text).moves =
      .ok ((sendCommands (text.map fun c => BitVec.ofNat 8 c.toNat) ++ readCommands).map presentMove)
end

