-- ==== Sys2Proof/Laws/Decode.lean ====
section
/-! SUPPORT. The fields of a command word: a word laid out from its fields has those fields, and a word is laid out from its
fields. -/

namespace Sys2Proof

/-- The value of a word laid out by R90. -/
theorem toNat_cmdWord (op : BitVec 4) (arg : Byte) : (cmdWord op arg).toNat = 4096 * op.toNat + arg.toNat := by
  show BitVec.toNat (w := 4 + 4 + 8) (op ++ (0 : BitVec 4) ++ arg) = _
  have h0 : BitVec.toNat (0 : BitVec 4) = 0 := rfl
  rw [BitVec.toNat_append, BitVec.toNat_append, h0, Nat.or_zero,
    ← Nat.shiftLeft_add_eq_or_of_lt arg.isLt, Nat.shiftLeft_eq, Nat.shiftLeft_eq]
  omega

theorem toNat_opField (w : BitVec 16) : (opField w).toNat = w.toNat / 4096 := by
  have := w.isLt
  simp only [opField, BitVec.extractLsb'_toNat, Nat.shiftRight_eq_div_pow]
  omega

theorem toNat_rsvField (w : BitVec 16) : (rsvField w).toNat = w.toNat / 256 % 16 := by
  simp only [rsvField, BitVec.extractLsb'_toNat, Nat.shiftRight_eq_div_pow]

theorem toNat_argField (w : BitVec 16) : (argField w).toNat = w.toNat % 256 := by
  simp [argField, BitVec.extractLsb'_toNat]

theorem opField_cmdWord (op : BitVec 4) (arg : Byte) : opField (cmdWord op arg) = op := by
  apply BitVec.eq_of_toNat_eq
  have := arg.isLt
  rw [toNat_opField, toNat_cmdWord]
  omega

theorem rsvField_cmdWord (op : BitVec 4) (arg : Byte) : rsvField (cmdWord op arg) = 0 := by
  apply BitVec.eq_of_toNat_eq
  have := arg.isLt
  rw [toNat_rsvField, toNat_cmdWord, show BitVec.toNat (0 : BitVec 4) = 0 from rfl]
  omega

theorem argField_cmdWord (op : BitVec 4) (arg : Byte) : argField (cmdWord op arg) = arg := by
  apply BitVec.eq_of_toNat_eq
  have := arg.isLt
  rw [toNat_argField, toNat_cmdWord]
  omega

/-- A word with its reserved bits clear is laid out from its operation code and its argument. -/
theorem eq_cmdWord {w : BitVec 16} (h : rsvField w = 0) : w = cmdWord (opField w) (argField w) := by
  have h' := congrArg BitVec.toNat h
  have := w.isLt
  rw [toNat_rsvField, show BitVec.toNat (0 : BitVec 4) = 0 from rfl] at h'
  apply BitVec.eq_of_toNat_eq
  rw [toNat_cmdWord, toNat_opField, toNat_argField]
  omega

/-- RDD's argument is well-formed exactly when it is an index below 32 (R95). -/
theorem rdd_wellFormed_iff : ∀ arg : Byte, (Instr.rdd arg).wellFormed = true ↔ arg < 32 := by decide

end Sys2Proof
end

