-- ==== Sys2Proof/Laws/State.lean ====
section
/-! SUPPORT. What each update of Machine/Ops.lean writes and what it leaves alone: one lemma per field per update, so that no
later proof unfolds a record update. -/

namespace Sys2Proof.Machine

variable (s : State)

/-! `setH` -/

@[simp] theorem State.setH_h (v : Vector Word 8) : (s.setH v).h = v := rfl
@[simp] theorem State.setH_a (v : Vector Word 8) : (s.setH v).a = s.a := rfl
@[simp] theorem State.setH_w (v : Vector Word 8) : (s.setH v).w = s.w := rfl
@[simp] theorem State.setH_blk (v : Vector Word 8) : (s.setH v).blk = s.blk := rfl
@[simp] theorem State.setH_digest (v : Vector Word 8) : (s.setH v).digest = s.digest := rfl
@[simp] theorem State.setH_fill (v : Vector Word 8) : (s.setH v).fill = s.fill := rfl
@[simp] theorem State.setH_len (v : Vector Word 8) : (s.setH v).len = s.len := rfl
@[simp] theorem State.setH_t (v : Vector Word 8) : (s.setH v).t = s.t := rfl
@[simp] theorem State.setH_phase (v : Vector Word 8) : (s.setH v).phase = s.phase := rfl
@[simp] theorem State.setH_padp (v : Vector Word 8) : (s.setH v).padp = s.padp := rfl
@[simp] theorem State.setH_errcode (v : Vector Word 8) : (s.setH v).errcode = s.errcode := rfl
@[simp] theorem State.setH_rst (v : Vector Word 8) : (s.setH v).rst = s.rst := rfl
@[simp] theorem State.setH_cmdValid (v : Vector Word 8) : (s.setH v).cmdValid = s.cmdValid := rfl
@[simp] theorem State.setH_cmd (v : Vector Word 8) : (s.setH v).cmd = s.cmd := rfl
@[simp] theorem State.setH_rspValid (v : Vector Word 8) : (s.setH v).rspValid = s.rspValid := rfl
@[simp] theorem State.setH_rsp (v : Vector Word 8) : (s.setH v).rsp = s.rsp := rfl
@[simp] theorem State.setH_script (v : Vector Word 8) : (s.setH v).script = s.script := rfl
@[simp] theorem State.setH_draws (v : Vector Word 8) : (s.setH v).draws = s.draws := rfl

/-! `setA` -/

@[simp] theorem State.setA_h (v : Vector Word 8) : (s.setA v).h = s.h := rfl
@[simp] theorem State.setA_a (v : Vector Word 8) : (s.setA v).a = v := rfl
@[simp] theorem State.setA_w (v : Vector Word 8) : (s.setA v).w = s.w := rfl
@[simp] theorem State.setA_blk (v : Vector Word 8) : (s.setA v).blk = s.blk := rfl
@[simp] theorem State.setA_digest (v : Vector Word 8) : (s.setA v).digest = s.digest := rfl
@[simp] theorem State.setA_fill (v : Vector Word 8) : (s.setA v).fill = s.fill := rfl
@[simp] theorem State.setA_len (v : Vector Word 8) : (s.setA v).len = s.len := rfl
@[simp] theorem State.setA_t (v : Vector Word 8) : (s.setA v).t = s.t := rfl
@[simp] theorem State.setA_phase (v : Vector Word 8) : (s.setA v).phase = s.phase := rfl
@[simp] theorem State.setA_padp (v : Vector Word 8) : (s.setA v).padp = s.padp := rfl
@[simp] theorem State.setA_errcode (v : Vector Word 8) : (s.setA v).errcode = s.errcode := rfl
@[simp] theorem State.setA_rst (v : Vector Word 8) : (s.setA v).rst = s.rst := rfl
@[simp] theorem State.setA_cmdValid (v : Vector Word 8) : (s.setA v).cmdValid = s.cmdValid := rfl
@[simp] theorem State.setA_cmd (v : Vector Word 8) : (s.setA v).cmd = s.cmd := rfl
@[simp] theorem State.setA_rspValid (v : Vector Word 8) : (s.setA v).rspValid = s.rspValid := rfl
@[simp] theorem State.setA_rsp (v : Vector Word 8) : (s.setA v).rsp = s.rsp := rfl
@[simp] theorem State.setA_script (v : Vector Word 8) : (s.setA v).script = s.script := rfl
@[simp] theorem State.setA_draws (v : Vector Word 8) : (s.setA v).draws = s.draws := rfl

/-! `setW` -/

@[simp] theorem State.setW_h (v : Vector Word 64) : (s.setW v).h = s.h := rfl
@[simp] theorem State.setW_a (v : Vector Word 64) : (s.setW v).a = s.a := rfl
@[simp] theorem State.setW_w (v : Vector Word 64) : (s.setW v).w = v := rfl
@[simp] theorem State.setW_blk (v : Vector Word 64) : (s.setW v).blk = s.blk := rfl
@[simp] theorem State.setW_digest (v : Vector Word 64) : (s.setW v).digest = s.digest := rfl
@[simp] theorem State.setW_fill (v : Vector Word 64) : (s.setW v).fill = s.fill := rfl
@[simp] theorem State.setW_len (v : Vector Word 64) : (s.setW v).len = s.len := rfl
@[simp] theorem State.setW_t (v : Vector Word 64) : (s.setW v).t = s.t := rfl
@[simp] theorem State.setW_phase (v : Vector Word 64) : (s.setW v).phase = s.phase := rfl
@[simp] theorem State.setW_padp (v : Vector Word 64) : (s.setW v).padp = s.padp := rfl
@[simp] theorem State.setW_errcode (v : Vector Word 64) : (s.setW v).errcode = s.errcode := rfl
@[simp] theorem State.setW_rst (v : Vector Word 64) : (s.setW v).rst = s.rst := rfl
@[simp] theorem State.setW_cmdValid (v : Vector Word 64) : (s.setW v).cmdValid = s.cmdValid := rfl
@[simp] theorem State.setW_cmd (v : Vector Word 64) : (s.setW v).cmd = s.cmd := rfl
@[simp] theorem State.setW_rspValid (v : Vector Word 64) : (s.setW v).rspValid = s.rspValid := rfl
@[simp] theorem State.setW_rsp (v : Vector Word 64) : (s.setW v).rsp = s.rsp := rfl
@[simp] theorem State.setW_script (v : Vector Word 64) : (s.setW v).script = s.script := rfl
@[simp] theorem State.setW_draws (v : Vector Word 64) : (s.setW v).draws = s.draws := rfl

/-! `setBlk` -/

@[simp] theorem State.setBlk_h (v : Vector Byte 64) : (s.setBlk v).h = s.h := rfl
@[simp] theorem State.setBlk_a (v : Vector Byte 64) : (s.setBlk v).a = s.a := rfl
@[simp] theorem State.setBlk_w (v : Vector Byte 64) : (s.setBlk v).w = s.w := rfl
@[simp] theorem State.setBlk_blk (v : Vector Byte 64) : (s.setBlk v).blk = v := rfl
@[simp] theorem State.setBlk_digest (v : Vector Byte 64) : (s.setBlk v).digest = s.digest := rfl
@[simp] theorem State.setBlk_fill (v : Vector Byte 64) : (s.setBlk v).fill = s.fill := rfl
@[simp] theorem State.setBlk_len (v : Vector Byte 64) : (s.setBlk v).len = s.len := rfl
@[simp] theorem State.setBlk_t (v : Vector Byte 64) : (s.setBlk v).t = s.t := rfl
@[simp] theorem State.setBlk_phase (v : Vector Byte 64) : (s.setBlk v).phase = s.phase := rfl
@[simp] theorem State.setBlk_padp (v : Vector Byte 64) : (s.setBlk v).padp = s.padp := rfl
@[simp] theorem State.setBlk_errcode (v : Vector Byte 64) : (s.setBlk v).errcode = s.errcode := rfl
@[simp] theorem State.setBlk_rst (v : Vector Byte 64) : (s.setBlk v).rst = s.rst := rfl
@[simp] theorem State.setBlk_cmdValid (v : Vector Byte 64) : (s.setBlk v).cmdValid = s.cmdValid := rfl
@[simp] theorem State.setBlk_cmd (v : Vector Byte 64) : (s.setBlk v).cmd = s.cmd := rfl
@[simp] theorem State.setBlk_rspValid (v : Vector Byte 64) : (s.setBlk v).rspValid = s.rspValid := rfl
@[simp] theorem State.setBlk_rsp (v : Vector Byte 64) : (s.setBlk v).rsp = s.rsp := rfl
@[simp] theorem State.setBlk_script (v : Vector Byte 64) : (s.setBlk v).script = s.script := rfl
@[simp] theorem State.setBlk_draws (v : Vector Byte 64) : (s.setBlk v).draws = s.draws := rfl

/-! `setDigest` -/

@[simp] theorem State.setDigest_h (v : Vector Byte 32) : (s.setDigest v).h = s.h := rfl
@[simp] theorem State.setDigest_a (v : Vector Byte 32) : (s.setDigest v).a = s.a := rfl
@[simp] theorem State.setDigest_w (v : Vector Byte 32) : (s.setDigest v).w = s.w := rfl
@[simp] theorem State.setDigest_blk (v : Vector Byte 32) : (s.setDigest v).blk = s.blk := rfl
@[simp] theorem State.setDigest_digest (v : Vector Byte 32) : (s.setDigest v).digest = v := rfl
@[simp] theorem State.setDigest_fill (v : Vector Byte 32) : (s.setDigest v).fill = s.fill := rfl
@[simp] theorem State.setDigest_len (v : Vector Byte 32) : (s.setDigest v).len = s.len := rfl
@[simp] theorem State.setDigest_t (v : Vector Byte 32) : (s.setDigest v).t = s.t := rfl
@[simp] theorem State.setDigest_phase (v : Vector Byte 32) : (s.setDigest v).phase = s.phase := rfl
@[simp] theorem State.setDigest_padp (v : Vector Byte 32) : (s.setDigest v).padp = s.padp := rfl
@[simp] theorem State.setDigest_errcode (v : Vector Byte 32) : (s.setDigest v).errcode = s.errcode := rfl
@[simp] theorem State.setDigest_rst (v : Vector Byte 32) : (s.setDigest v).rst = s.rst := rfl
@[simp] theorem State.setDigest_cmdValid (v : Vector Byte 32) : (s.setDigest v).cmdValid = s.cmdValid := rfl
@[simp] theorem State.setDigest_cmd (v : Vector Byte 32) : (s.setDigest v).cmd = s.cmd := rfl
@[simp] theorem State.setDigest_rspValid (v : Vector Byte 32) : (s.setDigest v).rspValid = s.rspValid := rfl
@[simp] theorem State.setDigest_rsp (v : Vector Byte 32) : (s.setDigest v).rsp = s.rsp := rfl
@[simp] theorem State.setDigest_script (v : Vector Byte 32) : (s.setDigest v).script = s.script := rfl
@[simp] theorem State.setDigest_draws (v : Vector Byte 32) : (s.setDigest v).draws = s.draws := rfl

/-! `setFill` -/

@[simp] theorem State.setFill_h (v : BitVec 7) : (s.setFill v).h = s.h := rfl
@[simp] theorem State.setFill_a (v : BitVec 7) : (s.setFill v).a = s.a := rfl
@[simp] theorem State.setFill_w (v : BitVec 7) : (s.setFill v).w = s.w := rfl
@[simp] theorem State.setFill_blk (v : BitVec 7) : (s.setFill v).blk = s.blk := rfl
@[simp] theorem State.setFill_digest (v : BitVec 7) : (s.setFill v).digest = s.digest := rfl
@[simp] theorem State.setFill_fill (v : BitVec 7) : (s.setFill v).fill = v := rfl
@[simp] theorem State.setFill_len (v : BitVec 7) : (s.setFill v).len = s.len := rfl
@[simp] theorem State.setFill_t (v : BitVec 7) : (s.setFill v).t = s.t := rfl
@[simp] theorem State.setFill_phase (v : BitVec 7) : (s.setFill v).phase = s.phase := rfl
@[simp] theorem State.setFill_padp (v : BitVec 7) : (s.setFill v).padp = s.padp := rfl
@[simp] theorem State.setFill_errcode (v : BitVec 7) : (s.setFill v).errcode = s.errcode := rfl
@[simp] theorem State.setFill_rst (v : BitVec 7) : (s.setFill v).rst = s.rst := rfl
@[simp] theorem State.setFill_cmdValid (v : BitVec 7) : (s.setFill v).cmdValid = s.cmdValid := rfl
@[simp] theorem State.setFill_cmd (v : BitVec 7) : (s.setFill v).cmd = s.cmd := rfl
@[simp] theorem State.setFill_rspValid (v : BitVec 7) : (s.setFill v).rspValid = s.rspValid := rfl
@[simp] theorem State.setFill_rsp (v : BitVec 7) : (s.setFill v).rsp = s.rsp := rfl
@[simp] theorem State.setFill_script (v : BitVec 7) : (s.setFill v).script = s.script := rfl
@[simp] theorem State.setFill_draws (v : BitVec 7) : (s.setFill v).draws = s.draws := rfl

/-! `setLen` -/

@[simp] theorem State.setLen_h (v : BitVec 61) : (s.setLen v).h = s.h := rfl
@[simp] theorem State.setLen_a (v : BitVec 61) : (s.setLen v).a = s.a := rfl
@[simp] theorem State.setLen_w (v : BitVec 61) : (s.setLen v).w = s.w := rfl
@[simp] theorem State.setLen_blk (v : BitVec 61) : (s.setLen v).blk = s.blk := rfl
@[simp] theorem State.setLen_digest (v : BitVec 61) : (s.setLen v).digest = s.digest := rfl
@[simp] theorem State.setLen_fill (v : BitVec 61) : (s.setLen v).fill = s.fill := rfl
@[simp] theorem State.setLen_len (v : BitVec 61) : (s.setLen v).len = v := rfl
@[simp] theorem State.setLen_t (v : BitVec 61) : (s.setLen v).t = s.t := rfl
@[simp] theorem State.setLen_phase (v : BitVec 61) : (s.setLen v).phase = s.phase := rfl
@[simp] theorem State.setLen_padp (v : BitVec 61) : (s.setLen v).padp = s.padp := rfl
@[simp] theorem State.setLen_errcode (v : BitVec 61) : (s.setLen v).errcode = s.errcode := rfl
@[simp] theorem State.setLen_rst (v : BitVec 61) : (s.setLen v).rst = s.rst := rfl
@[simp] theorem State.setLen_cmdValid (v : BitVec 61) : (s.setLen v).cmdValid = s.cmdValid := rfl
@[simp] theorem State.setLen_cmd (v : BitVec 61) : (s.setLen v).cmd = s.cmd := rfl
@[simp] theorem State.setLen_rspValid (v : BitVec 61) : (s.setLen v).rspValid = s.rspValid := rfl
@[simp] theorem State.setLen_rsp (v : BitVec 61) : (s.setLen v).rsp = s.rsp := rfl
@[simp] theorem State.setLen_script (v : BitVec 61) : (s.setLen v).script = s.script := rfl
@[simp] theorem State.setLen_draws (v : BitVec 61) : (s.setLen v).draws = s.draws := rfl

/-! `setT` -/

@[simp] theorem State.setT_h (v : BitVec 7) : (s.setT v).h = s.h := rfl
@[simp] theorem State.setT_a (v : BitVec 7) : (s.setT v).a = s.a := rfl
@[simp] theorem State.setT_w (v : BitVec 7) : (s.setT v).w = s.w := rfl
@[simp] theorem State.setT_blk (v : BitVec 7) : (s.setT v).blk = s.blk := rfl
@[simp] theorem State.setT_digest (v : BitVec 7) : (s.setT v).digest = s.digest := rfl
@[simp] theorem State.setT_fill (v : BitVec 7) : (s.setT v).fill = s.fill := rfl
@[simp] theorem State.setT_len (v : BitVec 7) : (s.setT v).len = s.len := rfl
@[simp] theorem State.setT_t (v : BitVec 7) : (s.setT v).t = v := rfl
@[simp] theorem State.setT_phase (v : BitVec 7) : (s.setT v).phase = s.phase := rfl
@[simp] theorem State.setT_padp (v : BitVec 7) : (s.setT v).padp = s.padp := rfl
@[simp] theorem State.setT_errcode (v : BitVec 7) : (s.setT v).errcode = s.errcode := rfl
@[simp] theorem State.setT_rst (v : BitVec 7) : (s.setT v).rst = s.rst := rfl
@[simp] theorem State.setT_cmdValid (v : BitVec 7) : (s.setT v).cmdValid = s.cmdValid := rfl
@[simp] theorem State.setT_cmd (v : BitVec 7) : (s.setT v).cmd = s.cmd := rfl
@[simp] theorem State.setT_rspValid (v : BitVec 7) : (s.setT v).rspValid = s.rspValid := rfl
@[simp] theorem State.setT_rsp (v : BitVec 7) : (s.setT v).rsp = s.rsp := rfl
@[simp] theorem State.setT_script (v : BitVec 7) : (s.setT v).script = s.script := rfl
@[simp] theorem State.setT_draws (v : BitVec 7) : (s.setT v).draws = s.draws := rfl

/-! `setPhase` -/

@[simp] theorem State.setPhase_h (v : BitVec 4) : (s.setPhase v).h = s.h := rfl
@[simp] theorem State.setPhase_a (v : BitVec 4) : (s.setPhase v).a = s.a := rfl
@[simp] theorem State.setPhase_w (v : BitVec 4) : (s.setPhase v).w = s.w := rfl
@[simp] theorem State.setPhase_blk (v : BitVec 4) : (s.setPhase v).blk = s.blk := rfl
@[simp] theorem State.setPhase_digest (v : BitVec 4) : (s.setPhase v).digest = s.digest := rfl
@[simp] theorem State.setPhase_fill (v : BitVec 4) : (s.setPhase v).fill = s.fill := rfl
@[simp] theorem State.setPhase_len (v : BitVec 4) : (s.setPhase v).len = s.len := rfl
@[simp] theorem State.setPhase_t (v : BitVec 4) : (s.setPhase v).t = s.t := rfl
@[simp] theorem State.setPhase_phase (v : BitVec 4) : (s.setPhase v).phase = v := rfl
@[simp] theorem State.setPhase_padp (v : BitVec 4) : (s.setPhase v).padp = s.padp := rfl
@[simp] theorem State.setPhase_errcode (v : BitVec 4) : (s.setPhase v).errcode = s.errcode := rfl
@[simp] theorem State.setPhase_rst (v : BitVec 4) : (s.setPhase v).rst = s.rst := rfl
@[simp] theorem State.setPhase_cmdValid (v : BitVec 4) : (s.setPhase v).cmdValid = s.cmdValid := rfl
@[simp] theorem State.setPhase_cmd (v : BitVec 4) : (s.setPhase v).cmd = s.cmd := rfl
@[simp] theorem State.setPhase_rspValid (v : BitVec 4) : (s.setPhase v).rspValid = s.rspValid := rfl
@[simp] theorem State.setPhase_rsp (v : BitVec 4) : (s.setPhase v).rsp = s.rsp := rfl
@[simp] theorem State.setPhase_script (v : BitVec 4) : (s.setPhase v).script = s.script := rfl
@[simp] theorem State.setPhase_draws (v : BitVec 4) : (s.setPhase v).draws = s.draws := rfl

/-! `setPadp` -/

@[simp] theorem State.setPadp_h (v : Padp) : (s.setPadp v).h = s.h := rfl
@[simp] theorem State.setPadp_a (v : Padp) : (s.setPadp v).a = s.a := rfl
@[simp] theorem State.setPadp_w (v : Padp) : (s.setPadp v).w = s.w := rfl
@[simp] theorem State.setPadp_blk (v : Padp) : (s.setPadp v).blk = s.blk := rfl
@[simp] theorem State.setPadp_digest (v : Padp) : (s.setPadp v).digest = s.digest := rfl
@[simp] theorem State.setPadp_fill (v : Padp) : (s.setPadp v).fill = s.fill := rfl
@[simp] theorem State.setPadp_len (v : Padp) : (s.setPadp v).len = s.len := rfl
@[simp] theorem State.setPadp_t (v : Padp) : (s.setPadp v).t = s.t := rfl
@[simp] theorem State.setPadp_phase (v : Padp) : (s.setPadp v).phase = s.phase := rfl
@[simp] theorem State.setPadp_padp (v : Padp) : (s.setPadp v).padp = v := rfl
@[simp] theorem State.setPadp_errcode (v : Padp) : (s.setPadp v).errcode = s.errcode := rfl
@[simp] theorem State.setPadp_rst (v : Padp) : (s.setPadp v).rst = s.rst := rfl
@[simp] theorem State.setPadp_cmdValid (v : Padp) : (s.setPadp v).cmdValid = s.cmdValid := rfl
@[simp] theorem State.setPadp_cmd (v : Padp) : (s.setPadp v).cmd = s.cmd := rfl
@[simp] theorem State.setPadp_rspValid (v : Padp) : (s.setPadp v).rspValid = s.rspValid := rfl
@[simp] theorem State.setPadp_rsp (v : Padp) : (s.setPadp v).rsp = s.rsp := rfl
@[simp] theorem State.setPadp_script (v : Padp) : (s.setPadp v).script = s.script := rfl
@[simp] theorem State.setPadp_draws (v : Padp) : (s.setPadp v).draws = s.draws := rfl

/-! `setErrcode` -/

@[simp] theorem State.setErrcode_h (v : BitVec 3) : (s.setErrcode v).h = s.h := rfl
@[simp] theorem State.setErrcode_a (v : BitVec 3) : (s.setErrcode v).a = s.a := rfl
@[simp] theorem State.setErrcode_w (v : BitVec 3) : (s.setErrcode v).w = s.w := rfl
@[simp] theorem State.setErrcode_blk (v : BitVec 3) : (s.setErrcode v).blk = s.blk := rfl
@[simp] theorem State.setErrcode_digest (v : BitVec 3) : (s.setErrcode v).digest = s.digest := rfl
@[simp] theorem State.setErrcode_fill (v : BitVec 3) : (s.setErrcode v).fill = s.fill := rfl
@[simp] theorem State.setErrcode_len (v : BitVec 3) : (s.setErrcode v).len = s.len := rfl
@[simp] theorem State.setErrcode_t (v : BitVec 3) : (s.setErrcode v).t = s.t := rfl
@[simp] theorem State.setErrcode_phase (v : BitVec 3) : (s.setErrcode v).phase = s.phase := rfl
@[simp] theorem State.setErrcode_padp (v : BitVec 3) : (s.setErrcode v).padp = s.padp := rfl
@[simp] theorem State.setErrcode_errcode (v : BitVec 3) : (s.setErrcode v).errcode = v := rfl
@[simp] theorem State.setErrcode_rst (v : BitVec 3) : (s.setErrcode v).rst = s.rst := rfl
@[simp] theorem State.setErrcode_cmdValid (v : BitVec 3) : (s.setErrcode v).cmdValid = s.cmdValid := rfl
@[simp] theorem State.setErrcode_cmd (v : BitVec 3) : (s.setErrcode v).cmd = s.cmd := rfl
@[simp] theorem State.setErrcode_rspValid (v : BitVec 3) : (s.setErrcode v).rspValid = s.rspValid := rfl
@[simp] theorem State.setErrcode_rsp (v : BitVec 3) : (s.setErrcode v).rsp = s.rsp := rfl
@[simp] theorem State.setErrcode_script (v : BitVec 3) : (s.setErrcode v).script = s.script := rfl
@[simp] theorem State.setErrcode_draws (v : BitVec 3) : (s.setErrcode v).draws = s.draws := rfl

/-! `setPins` -/

@[simp] theorem State.setPins_h (r v : Bool) (c : BitVec 16) : (s.setPins r v c).h = s.h := rfl
@[simp] theorem State.setPins_a (r v : Bool) (c : BitVec 16) : (s.setPins r v c).a = s.a := rfl
@[simp] theorem State.setPins_w (r v : Bool) (c : BitVec 16) : (s.setPins r v c).w = s.w := rfl
@[simp] theorem State.setPins_blk (r v : Bool) (c : BitVec 16) : (s.setPins r v c).blk = s.blk := rfl
@[simp] theorem State.setPins_digest (r v : Bool) (c : BitVec 16) : (s.setPins r v c).digest = s.digest := rfl
@[simp] theorem State.setPins_fill (r v : Bool) (c : BitVec 16) : (s.setPins r v c).fill = s.fill := rfl
@[simp] theorem State.setPins_len (r v : Bool) (c : BitVec 16) : (s.setPins r v c).len = s.len := rfl
@[simp] theorem State.setPins_t (r v : Bool) (c : BitVec 16) : (s.setPins r v c).t = s.t := rfl
@[simp] theorem State.setPins_phase (r v : Bool) (c : BitVec 16) : (s.setPins r v c).phase = s.phase := rfl
@[simp] theorem State.setPins_padp (r v : Bool) (c : BitVec 16) : (s.setPins r v c).padp = s.padp := rfl
@[simp] theorem State.setPins_errcode (r v : Bool) (c : BitVec 16) : (s.setPins r v c).errcode = s.errcode := rfl
@[simp] theorem State.setPins_rst (r v : Bool) (c : BitVec 16) : (s.setPins r v c).rst = r := rfl
@[simp] theorem State.setPins_cmdValid (r v : Bool) (c : BitVec 16) : (s.setPins r v c).cmdValid = v := rfl
@[simp] theorem State.setPins_cmd (r v : Bool) (c : BitVec 16) : (s.setPins r v c).cmd = c := rfl
@[simp] theorem State.setPins_rspValid (r v : Bool) (c : BitVec 16) : (s.setPins r v c).rspValid = s.rspValid := rfl
@[simp] theorem State.setPins_rsp (r v : Bool) (c : BitVec 16) : (s.setPins r v c).rsp = s.rsp := rfl
@[simp] theorem State.setPins_script (r v : Bool) (c : BitVec 16) : (s.setPins r v c).script = s.script := rfl
@[simp] theorem State.setPins_draws (r v : Bool) (c : BitVec 16) : (s.setPins r v c).draws = s.draws := rfl

/-! `setResponse` -/

@[simp] theorem State.setResponse_h (v : Bool) (b : Byte) : (s.setResponse v b).h = s.h := rfl
@[simp] theorem State.setResponse_a (v : Bool) (b : Byte) : (s.setResponse v b).a = s.a := rfl
@[simp] theorem State.setResponse_w (v : Bool) (b : Byte) : (s.setResponse v b).w = s.w := rfl
@[simp] theorem State.setResponse_blk (v : Bool) (b : Byte) : (s.setResponse v b).blk = s.blk := rfl
@[simp] theorem State.setResponse_digest (v : Bool) (b : Byte) : (s.setResponse v b).digest = s.digest := rfl
@[simp] theorem State.setResponse_fill (v : Bool) (b : Byte) : (s.setResponse v b).fill = s.fill := rfl
@[simp] theorem State.setResponse_len (v : Bool) (b : Byte) : (s.setResponse v b).len = s.len := rfl
@[simp] theorem State.setResponse_t (v : Bool) (b : Byte) : (s.setResponse v b).t = s.t := rfl
@[simp] theorem State.setResponse_phase (v : Bool) (b : Byte) : (s.setResponse v b).phase = s.phase := rfl
@[simp] theorem State.setResponse_padp (v : Bool) (b : Byte) : (s.setResponse v b).padp = s.padp := rfl
@[simp] theorem State.setResponse_errcode (v : Bool) (b : Byte) : (s.setResponse v b).errcode = s.errcode := rfl
@[simp] theorem State.setResponse_rst (v : Bool) (b : Byte) : (s.setResponse v b).rst = s.rst := rfl
@[simp] theorem State.setResponse_cmdValid (v : Bool) (b : Byte) : (s.setResponse v b).cmdValid = s.cmdValid := rfl
@[simp] theorem State.setResponse_cmd (v : Bool) (b : Byte) : (s.setResponse v b).cmd = s.cmd := rfl
@[simp] theorem State.setResponse_rspValid (v : Bool) (b : Byte) : (s.setResponse v b).rspValid = v := rfl
@[simp] theorem State.setResponse_rsp (v : Bool) (b : Byte) : (s.setResponse v b).rsp = b := rfl
@[simp] theorem State.setResponse_script (v : Bool) (b : Byte) : (s.setResponse v b).script = s.script := rfl
@[simp] theorem State.setResponse_draws (v : Bool) (b : Byte) : (s.setResponse v b).draws = s.draws := rfl

/-! `setScript` -/

@[simp] theorem State.setScript_h (v : List HostMove) : (s.setScript v).h = s.h := rfl
@[simp] theorem State.setScript_a (v : List HostMove) : (s.setScript v).a = s.a := rfl
@[simp] theorem State.setScript_w (v : List HostMove) : (s.setScript v).w = s.w := rfl
@[simp] theorem State.setScript_blk (v : List HostMove) : (s.setScript v).blk = s.blk := rfl
@[simp] theorem State.setScript_digest (v : List HostMove) : (s.setScript v).digest = s.digest := rfl
@[simp] theorem State.setScript_fill (v : List HostMove) : (s.setScript v).fill = s.fill := rfl
@[simp] theorem State.setScript_len (v : List HostMove) : (s.setScript v).len = s.len := rfl
@[simp] theorem State.setScript_t (v : List HostMove) : (s.setScript v).t = s.t := rfl
@[simp] theorem State.setScript_phase (v : List HostMove) : (s.setScript v).phase = s.phase := rfl
@[simp] theorem State.setScript_padp (v : List HostMove) : (s.setScript v).padp = s.padp := rfl
@[simp] theorem State.setScript_errcode (v : List HostMove) : (s.setScript v).errcode = s.errcode := rfl
@[simp] theorem State.setScript_rst (v : List HostMove) : (s.setScript v).rst = s.rst := rfl
@[simp] theorem State.setScript_cmdValid (v : List HostMove) : (s.setScript v).cmdValid = s.cmdValid := rfl
@[simp] theorem State.setScript_cmd (v : List HostMove) : (s.setScript v).cmd = s.cmd := rfl
@[simp] theorem State.setScript_rspValid (v : List HostMove) : (s.setScript v).rspValid = s.rspValid := rfl
@[simp] theorem State.setScript_rsp (v : List HostMove) : (s.setScript v).rsp = s.rsp := rfl
@[simp] theorem State.setScript_script (v : List HostMove) : (s.setScript v).script = v := rfl
@[simp] theorem State.setScript_draws (v : List HostMove) : (s.setScript v).draws = s.draws := rfl

/-! `countDraw` -/

@[simp] theorem State.countDraw_h : (s.countDraw).h = s.h := rfl
@[simp] theorem State.countDraw_a : (s.countDraw).a = s.a := rfl
@[simp] theorem State.countDraw_w : (s.countDraw).w = s.w := rfl
@[simp] theorem State.countDraw_blk : (s.countDraw).blk = s.blk := rfl
@[simp] theorem State.countDraw_digest : (s.countDraw).digest = s.digest := rfl
@[simp] theorem State.countDraw_fill : (s.countDraw).fill = s.fill := rfl
@[simp] theorem State.countDraw_len : (s.countDraw).len = s.len := rfl
@[simp] theorem State.countDraw_t : (s.countDraw).t = s.t := rfl
@[simp] theorem State.countDraw_phase : (s.countDraw).phase = s.phase := rfl
@[simp] theorem State.countDraw_padp : (s.countDraw).padp = s.padp := rfl
@[simp] theorem State.countDraw_errcode : (s.countDraw).errcode = s.errcode := rfl
@[simp] theorem State.countDraw_rst : (s.countDraw).rst = s.rst := rfl
@[simp] theorem State.countDraw_cmdValid : (s.countDraw).cmdValid = s.cmdValid := rfl
@[simp] theorem State.countDraw_cmd : (s.countDraw).cmd = s.cmd := rfl
@[simp] theorem State.countDraw_rspValid : (s.countDraw).rspValid = s.rspValid := rfl
@[simp] theorem State.countDraw_rsp : (s.countDraw).rsp = s.rsp := rfl
@[simp] theorem State.countDraw_script : (s.countDraw).script = s.script := rfl
@[simp] theorem State.countDraw_draws : (s.countDraw).draws = s.draws + 1 := rfl

/-! `respond` -/

@[simp] theorem State.respond_h (v : Byte) : (s.respond v).h = s.h := rfl
@[simp] theorem State.respond_a (v : Byte) : (s.respond v).a = s.a := rfl
@[simp] theorem State.respond_w (v : Byte) : (s.respond v).w = s.w := rfl
@[simp] theorem State.respond_blk (v : Byte) : (s.respond v).blk = s.blk := rfl
@[simp] theorem State.respond_digest (v : Byte) : (s.respond v).digest = s.digest := rfl
@[simp] theorem State.respond_fill (v : Byte) : (s.respond v).fill = s.fill := rfl
@[simp] theorem State.respond_len (v : Byte) : (s.respond v).len = s.len := rfl
@[simp] theorem State.respond_t (v : Byte) : (s.respond v).t = s.t := rfl
@[simp] theorem State.respond_phase (v : Byte) : (s.respond v).phase = s.phase := rfl
@[simp] theorem State.respond_padp (v : Byte) : (s.respond v).padp = s.padp := rfl
@[simp] theorem State.respond_errcode (v : Byte) : (s.respond v).errcode = s.errcode := rfl
@[simp] theorem State.respond_rst (v : Byte) : (s.respond v).rst = s.rst := rfl
@[simp] theorem State.respond_cmdValid (v : Byte) : (s.respond v).cmdValid = s.cmdValid := rfl
@[simp] theorem State.respond_cmd (v : Byte) : (s.respond v).cmd = s.cmd := rfl
@[simp] theorem State.respond_rspValid (v : Byte) : (s.respond v).rspValid = true := rfl
@[simp] theorem State.respond_rsp (v : Byte) : (s.respond v).rsp = v := rfl
@[simp] theorem State.respond_script (v : Byte) : (s.respond v).script = s.script := rfl
@[simp] theorem State.respond_draws (v : Byte) : (s.respond v).draws = s.draws := rfl

/-! `noResponse` -/

@[simp] theorem State.noResponse_h : (s.noResponse).h = s.h := rfl
@[simp] theorem State.noResponse_a : (s.noResponse).a = s.a := rfl
@[simp] theorem State.noResponse_w : (s.noResponse).w = s.w := rfl
@[simp] theorem State.noResponse_blk : (s.noResponse).blk = s.blk := rfl
@[simp] theorem State.noResponse_digest : (s.noResponse).digest = s.digest := rfl
@[simp] theorem State.noResponse_fill : (s.noResponse).fill = s.fill := rfl
@[simp] theorem State.noResponse_len : (s.noResponse).len = s.len := rfl
@[simp] theorem State.noResponse_t : (s.noResponse).t = s.t := rfl
@[simp] theorem State.noResponse_phase : (s.noResponse).phase = s.phase := rfl
@[simp] theorem State.noResponse_padp : (s.noResponse).padp = s.padp := rfl
@[simp] theorem State.noResponse_errcode : (s.noResponse).errcode = s.errcode := rfl
@[simp] theorem State.noResponse_rst : (s.noResponse).rst = s.rst := rfl
@[simp] theorem State.noResponse_cmdValid : (s.noResponse).cmdValid = s.cmdValid := rfl
@[simp] theorem State.noResponse_cmd : (s.noResponse).cmd = s.cmd := rfl
@[simp] theorem State.noResponse_rspValid : (s.noResponse).rspValid = false := rfl
@[simp] theorem State.noResponse_rsp : (s.noResponse).rsp = Config.freeRsp s.draws := rfl
@[simp] theorem State.noResponse_script : (s.noResponse).script = s.script := rfl
@[simp] theorem State.noResponse_draws : (s.noResponse).draws = s.draws + 1 := rfl

/-! `openMessage` -/

@[simp] theorem State.openMessage_h : (s.openMessage).h = IV := rfl
@[simp] theorem State.openMessage_a : (s.openMessage).a = s.a := rfl
@[simp] theorem State.openMessage_w : (s.openMessage).w = s.w := rfl
@[simp] theorem State.openMessage_blk : (s.openMessage).blk = s.blk := rfl
@[simp] theorem State.openMessage_digest : (s.openMessage).digest = s.digest := rfl
@[simp] theorem State.openMessage_fill : (s.openMessage).fill = 0 := rfl
@[simp] theorem State.openMessage_len : (s.openMessage).len = 0 := rfl
@[simp] theorem State.openMessage_t : (s.openMessage).t = s.t := rfl
@[simp] theorem State.openMessage_phase : (s.openMessage).phase = Phase.opened := rfl
@[simp] theorem State.openMessage_padp : (s.openMessage).padp = .pnone := rfl
@[simp] theorem State.openMessage_errcode : (s.openMessage).errcode = 0 := rfl
@[simp] theorem State.openMessage_rst : (s.openMessage).rst = s.rst := rfl
@[simp] theorem State.openMessage_cmdValid : (s.openMessage).cmdValid = s.cmdValid := rfl
@[simp] theorem State.openMessage_cmd : (s.openMessage).cmd = s.cmd := rfl
@[simp] theorem State.openMessage_rspValid : (s.openMessage).rspValid = s.rspValid := rfl
@[simp] theorem State.openMessage_rsp : (s.openMessage).rsp = s.rsp := rfl
@[simp] theorem State.openMessage_script : (s.openMessage).script = s.script := rfl
@[simp] theorem State.openMessage_draws : (s.openMessage).draws = s.draws := rfl

/-! `freePort` -/

@[simp] theorem State.freePort_h (r : Bool) : (s.freePort r).h = s.h := rfl
@[simp] theorem State.freePort_a (r : Bool) : (s.freePort r).a = s.a := rfl
@[simp] theorem State.freePort_w (r : Bool) : (s.freePort r).w = s.w := rfl
@[simp] theorem State.freePort_blk (r : Bool) : (s.freePort r).blk = s.blk := rfl
@[simp] theorem State.freePort_digest (r : Bool) : (s.freePort r).digest = s.digest := rfl
@[simp] theorem State.freePort_fill (r : Bool) : (s.freePort r).fill = s.fill := rfl
@[simp] theorem State.freePort_len (r : Bool) : (s.freePort r).len = s.len := rfl
@[simp] theorem State.freePort_t (r : Bool) : (s.freePort r).t = s.t := rfl
@[simp] theorem State.freePort_phase (r : Bool) : (s.freePort r).phase = s.phase := rfl
@[simp] theorem State.freePort_padp (r : Bool) : (s.freePort r).padp = s.padp := rfl
@[simp] theorem State.freePort_errcode (r : Bool) : (s.freePort r).errcode = s.errcode := rfl
@[simp] theorem State.freePort_rst (r : Bool) : (s.freePort r).rst = r := rfl
@[simp] theorem State.freePort_cmdValid (r : Bool) : (s.freePort r).cmdValid = false := rfl
@[simp] theorem State.freePort_cmd (r : Bool) : (s.freePort r).cmd = Config.freeCmd s.draws := rfl
@[simp] theorem State.freePort_rspValid (r : Bool) : (s.freePort r).rspValid = s.rspValid := rfl
@[simp] theorem State.freePort_rsp (r : Bool) : (s.freePort r).rsp = s.rsp := rfl
@[simp] theorem State.freePort_script (r : Bool) : (s.freePort r).script = s.script := rfl
@[simp] theorem State.freePort_draws (r : Bool) : (s.freePort r).draws = s.draws + 1 := rfl

/-! `raiseErr`: ERRCODE keeps the first error, and there is no response (R301). -/

@[simp] theorem State.raiseErr_h (e : Err) : (s.raiseErr e).h = s.h := by
  unfold State.raiseErr; split <;> rfl
@[simp] theorem State.raiseErr_a (e : Err) : (s.raiseErr e).a = s.a := by
  unfold State.raiseErr; split <;> rfl
@[simp] theorem State.raiseErr_w (e : Err) : (s.raiseErr e).w = s.w := by
  unfold State.raiseErr; split <;> rfl
@[simp] theorem State.raiseErr_blk (e : Err) : (s.raiseErr e).blk = s.blk := by
  unfold State.raiseErr; split <;> rfl
@[simp] theorem State.raiseErr_digest (e : Err) : (s.raiseErr e).digest = s.digest := by
  unfold State.raiseErr; split <;> rfl
@[simp] theorem State.raiseErr_fill (e : Err) : (s.raiseErr e).fill = s.fill := by
  unfold State.raiseErr; split <;> rfl
@[simp] theorem State.raiseErr_len (e : Err) : (s.raiseErr e).len = s.len := by
  unfold State.raiseErr; split <;> rfl
@[simp] theorem State.raiseErr_t (e : Err) : (s.raiseErr e).t = s.t := by
  unfold State.raiseErr; split <;> rfl
@[simp] theorem State.raiseErr_phase (e : Err) : (s.raiseErr e).phase = s.phase := by
  unfold State.raiseErr; split <;> rfl
@[simp] theorem State.raiseErr_padp (e : Err) : (s.raiseErr e).padp = s.padp := by
  unfold State.raiseErr; split <;> rfl
@[simp] theorem State.raiseErr_errcode (e : Err) : (s.raiseErr e).errcode = if s.errcode = 0 then e.code else s.errcode := by
  unfold State.raiseErr; split <;> rfl
@[simp] theorem State.raiseErr_rst (e : Err) : (s.raiseErr e).rst = s.rst := by
  unfold State.raiseErr; split <;> rfl
@[simp] theorem State.raiseErr_cmdValid (e : Err) : (s.raiseErr e).cmdValid = s.cmdValid := by
  unfold State.raiseErr; split <;> rfl
@[simp] theorem State.raiseErr_cmd (e : Err) : (s.raiseErr e).cmd = s.cmd := by
  unfold State.raiseErr; split <;> rfl
@[simp] theorem State.raiseErr_rspValid (e : Err) : (s.raiseErr e).rspValid = false := by
  unfold State.raiseErr; split <;> rfl
@[simp] theorem State.raiseErr_rsp (e : Err) : (s.raiseErr e).rsp = Config.freeRsp s.draws := by
  unfold State.raiseErr; split <;> rfl
@[simp] theorem State.raiseErr_script (e : Err) : (s.raiseErr e).script = s.script := by
  unfold State.raiseErr; split <;> rfl
@[simp] theorem State.raiseErr_draws (e : Err) : (s.raiseErr e).draws = s.draws + 1 := by
  unfold State.raiseErr; split <;> rfl

/-! `driveHost` is the host's part of a step: it leaves every register of the block and the response port alone. -/

@[simp] theorem State.driveHost_h (held : Bool) : (s.driveHost held).h = s.h := by
  unfold State.driveHost; split <;> rfl
@[simp] theorem State.driveHost_a (held : Bool) : (s.driveHost held).a = s.a := by
  unfold State.driveHost; split <;> rfl
@[simp] theorem State.driveHost_w (held : Bool) : (s.driveHost held).w = s.w := by
  unfold State.driveHost; split <;> rfl
@[simp] theorem State.driveHost_blk (held : Bool) : (s.driveHost held).blk = s.blk := by
  unfold State.driveHost; split <;> rfl
@[simp] theorem State.driveHost_digest (held : Bool) : (s.driveHost held).digest = s.digest := by
  unfold State.driveHost; split <;> rfl
@[simp] theorem State.driveHost_fill (held : Bool) : (s.driveHost held).fill = s.fill := by
  unfold State.driveHost; split <;> rfl
@[simp] theorem State.driveHost_len (held : Bool) : (s.driveHost held).len = s.len := by
  unfold State.driveHost; split <;> rfl
@[simp] theorem State.driveHost_t (held : Bool) : (s.driveHost held).t = s.t := by
  unfold State.driveHost; split <;> rfl
@[simp] theorem State.driveHost_phase (held : Bool) : (s.driveHost held).phase = s.phase := by
  unfold State.driveHost; split <;> rfl
@[simp] theorem State.driveHost_padp (held : Bool) : (s.driveHost held).padp = s.padp := by
  unfold State.driveHost; split <;> rfl
@[simp] theorem State.driveHost_errcode (held : Bool) : (s.driveHost held).errcode = s.errcode := by
  unfold State.driveHost; split <;> rfl
@[simp] theorem State.driveHost_rspValid (held : Bool) : (s.driveHost held).rspValid = s.rspValid := by
  unfold State.driveHost; split <;> rfl
@[simp] theorem State.driveHost_rsp (held : Bool) : (s.driveHost held).rsp = s.rsp := by
  unfold State.driveHost; split <;> rfl

/-! `resetStep`: the control registers of R43; the arrays are free values. -/

@[simp] theorem State.resetStep_h : s.resetStep.h = Config.resetH s.draws := rfl
@[simp] theorem State.resetStep_a : s.resetStep.a = Config.resetA s.draws := rfl
@[simp] theorem State.resetStep_w : s.resetStep.w = Config.resetW s.draws := rfl
@[simp] theorem State.resetStep_blk : s.resetStep.blk = Config.resetBlk s.draws := rfl
@[simp] theorem State.resetStep_digest : s.resetStep.digest = Config.resetDigest s.draws := rfl
@[simp] theorem State.resetStep_fill : s.resetStep.fill = 0 := rfl
@[simp] theorem State.resetStep_len : s.resetStep.len = 0 := rfl
@[simp] theorem State.resetStep_t : s.resetStep.t = 0 := rfl
@[simp] theorem State.resetStep_phase : s.resetStep.phase = Phase.idle := rfl
@[simp] theorem State.resetStep_padp : s.resetStep.padp = .pnone := rfl
@[simp] theorem State.resetStep_errcode : s.resetStep.errcode = 0 := rfl
@[simp] theorem State.resetStep_rst : s.resetStep.rst = s.rst := rfl
@[simp] theorem State.resetStep_cmdValid : s.resetStep.cmdValid = s.cmdValid := rfl
@[simp] theorem State.resetStep_cmd : s.resetStep.cmd = s.cmd := rfl
@[simp] theorem State.resetStep_rspValid : s.resetStep.rspValid = false := rfl
@[simp] theorem State.resetStep_rsp : s.resetStep.rsp = Config.freeRsp s.draws := rfl
@[simp] theorem State.resetStep_script : s.resetStep.script = s.script := rfl
@[simp] theorem State.resetStep_draws : s.resetStep.draws = s.draws + 1 := rfl

end Sys2Proof.Machine
end

