-- ==== Sys2Proof/Laws/Ops.lean ====
section
/-! SUPPORT. What the shared operations can do, said once: the byte write of ABSORB and PAD, and the host's part of a step. -/

namespace Sys2Proof.Machine

/-- A byte below the top is written, and the machine goes on. -/
theorem State.putByte_of_lt {s : State} (stay : BitVec 4) (v : Byte) (hf : s.fill.toNat < 64) :
    s.putByte stay v = .next
      (if s.fill.toNat = 63 then ((((s.setBlk (s.blk.set s.fill.toNat v hf)).setFill (s.fill + 1)).setPhase Phase.loadw).setT 0)
      else (((s.setBlk (s.blk.set s.fill.toNat v hf)).setFill (s.fill + 1)).setPhase stay)) := by
  have hiff : (s.fill + 1 = 64) ↔ s.fill.toNat = 63 := by bv_omega
  simp only [State.putByte, hf, dite_true, hiff]
  split <;> rfl

/-- A FILL above 63 stops: BLK has no such element. -/
theorem State.putByte_of_ge {s : State} (stay : BitVec 4) (v : Byte) (hf : 64 ≤ s.fill.toNat) :
    s.putByte stay v = .fault .blkIndex := by
  simp [State.putByte, Nat.not_lt.mpr hf]

/-- Everything `putByte` can do when it goes on. -/
theorem State.putByte_next {s t : State} {stay : BitVec 4} {v : Byte} (h : s.putByte stay v = .next t) :
    ∃ hf : s.fill.toNat < 64, t =
      (if s.fill.toNat = 63 then ((((s.setBlk (s.blk.set s.fill.toNat v hf)).setFill (s.fill + 1)).setPhase Phase.loadw).setT 0)
      else (((s.setBlk (s.blk.set s.fill.toNat v hf)).setFill (s.fill + 1)).setPhase stay)) := by
  by_cases hf : s.fill.toNat < 64
  · rw [putByte_of_lt stay v hf] at h
    cases h
    exact ⟨hf, rfl⟩
  · rw [putByte_of_ge stay v (Nat.not_lt.mp hf)] at h
    cases h

/-- A held command stays on the port, unchanged. -/
theorem State.driveHost_held (s : State) : (s.driveHost true).cmdValid = true ∧ (s.driveHost true).cmd = s.cmd := by
  unfold State.driveHost
  split <;> simp_all

/-- The host takes its moves in order: what is left of the script is a suffix of what there was. -/
theorem State.driveHost_script_suffix (s : State) (held : Bool) : (s.driveHost held).script <:+ s.script := by
  unfold State.driveHost
  split <;> simp_all

/-- `rst` is raised only by a move that raises it. -/
theorem State.driveHost_rst {s : State} {held : Bool} (h : (s.driveHost held).rst = true) :
    ∃ m ∈ s.script, m.raisesReset = true := by
  unfold State.driveHost at h
  split at h <;> simp_all [HostMove.raisesReset]

end Sys2Proof.Machine
end

