-- ==== Sys2Proof/Laws/Meanings.lean ====
section
/-! SUPPORT. Each meaning's cases, said once: everything it can do when it goes on. -/

namespace Sys2Proof.Machine

variable {s t : State}

/-- ABSORB goes on in one of three ways: PROTOCOL, LENOVF, or a byte written. -/
theorem execAbsorb_next {b : Byte} (h : execAbsorb b s = .next t) :
    (s.phase ≠ Phase.opened ∧ t = s.raiseErr .protocol) ∨
    (s.phase = Phase.opened ∧ s.len = BitVec.allOnes 61 ∧ t = s.raiseErr .lenovf) ∨
    (s.phase = Phase.opened ∧ s.len ≠ BitVec.allOnes 61 ∧
      (s.noResponse.setLen (s.len + 1)).putByte Phase.opened b = .next t) := by
  unfold execAbsorb at h
  split_ifs at h <;> simp_all [eq_comm]

/-- FINAL goes on in one of two ways. -/
theorem execFinal_next (h : execFinal s = .next t) :
    (s.phase ≠ Phase.opened ∧ t = s.raiseErr .protocol) ∨
    (s.phase = Phase.opened ∧ t = ((s.setPadp .p80).setPhase Phase.pad).noResponse) := by
  unfold execFinal at h
  split_ifs at h <;> simp_all [eq_comm]

/-- RDD goes on in one of two ways. -/
theorem execRdd_next {arg : Byte} (h : execRdd arg s = .next t) :
    (s.phase ≠ Phase.done ∧ t = s.raiseErr .protocol) ∨
    (s.phase = Phase.done ∧ t = s.respond (s.digest[(rddIndex arg).toNat]'(rddIndex arg).isLt)) := by
  unfold execRdd at h
  split_ifs at h <;> simp_all [eq_comm]

/-- LOADW goes on only with T in 0..15. -/
theorem execLoadw_next (h : execLoadw s = .next t) : ∃ ht : s.t.toNat < 16,
    t = ((((s.setW (s.w.set s.t.toNat (memRead s.blk (4 * s.t.toNat) (by omega)))).setT (s.t + 1)).setPhase
      (if s.t + 1 = 16 then Phase.expand else Phase.loadw)).noResponse) := by
  unfold execLoadw at h
  split_ifs at h with ht <;> simp_all [eq_comm]

/-- EXPAND goes on only with T in 16..63. -/
theorem execExpand_next (h : execExpand s = .next t) : ∃ ht : 16 ≤ s.t.toNat ∧ s.t.toNat < 64,
    t = ((((s.setW (s.w.set s.t.toNat (scheduleWord s.w s.t.toNat ht.1 ht.2) ht.2)).setT (s.t + 1)).setPhase
      (if s.t + 1 = 64 then Phase.loadregs else Phase.expand)).noResponse) := by
  unfold execExpand at h
  split_ifs at h with ht <;> simp_all [eq_comm]

/-- ROUND goes on only with T in 0..63. -/
theorem execRound_next (h : execRound s = .next t) : ∃ ht : s.t.toNat < 64,
    t = ((((s.setA (mixRound s.a K[s.t.toNat] s.w[s.t.toNat])).setT (s.t + 1)).setPhase
      (if s.t + 1 = 64 then Phase.accum else Phase.round)).noResponse) := by
  unfold execRound at h
  split_ifs at h with ht <;> simp_all [eq_comm]

/-- LOADW with T in 0..15 goes on. -/
theorem execLoadw_of_lt (ht : s.t.toNat < 16) : execLoadw s =
    .next ((((s.setW (s.w.set s.t.toNat (memRead s.blk (4 * s.t.toNat) (by omega)))).setT (s.t + 1)).setPhase
      (if s.t + 1 = 16 then Phase.expand else Phase.loadw)).noResponse) := by
  simp [execLoadw, ht]

/-- EXPAND with T in 16..63 goes on. -/
theorem execExpand_of_range (lo : 16 ≤ s.t.toNat) (hi : s.t.toNat < 64) : execExpand s =
    .next ((((s.setW (s.w.set s.t.toNat (scheduleWord s.w s.t.toNat lo hi) hi)).setT (s.t + 1)).setPhase
      (if s.t + 1 = 64 then Phase.loadregs else Phase.expand)).noResponse) := by
  simp [execExpand, lo, hi]

/-- ROUND with T in 0..63 goes on. -/
theorem execRound_of_lt (ht : s.t.toNat < 64) : execRound s =
    .next ((((s.setA (mixRound s.a K[s.t.toNat] s.w[s.t.toNat])).setT (s.t + 1)).setPhase
      (if s.t + 1 = 64 then Phase.accum else Phase.round)).noResponse) := by
  simp [execRound, ht]

/-- PAD goes on by writing the byte it selects. -/
theorem execPad_next (h : execPad s = .next t) :
    ((s.noResponse.setPadp (padSelect s.padp s.fill s.len).2).putByte Phase.pad (padSelect s.padp s.fill s.len).1) = .next t := h

end Sys2Proof.Machine
end

