-- ==== Sys2Proof/Laws/PerInstr.lean ====
section
/-! SUPPORT. The per-instruction family: the encoder writes every instruction inside its own row of spec/opcode_table.json
(R91, R93). One lemma per constructor of Instr; each is about syntax and encoding alone. -/

namespace Sys2Proof.Laws

/-- The bits of an encoding as the opcode table numbers them. -/
def encodingBits : Encoding → Nat
  | .cmd16 w => w.toNat
  | .phase4 p => p.toNat

/-- The columns `mask` and `match` of an instruction's row in spec/opcode_table.json. -/
def tableRow : Instr → Nat × Nat
  | .nop => (0xFFFF, 0x0000)
  | .init => (0xFFFF, 0x1000)
  | .absorb _ => (0xFF00, 0x2000)
  | .final => (0xFFFF, 0x3000)
  | .rdd _ => (0xFFE0, 0x4000)
  | .pad => (0xF, 0x2)
  | .loadw => (0xF, 0x3)
  | .expand => (0xF, 0x4)
  | .loadregs => (0xF, 0x5)
  | .round => (0xF, 0x6)
  | .accum => (0xF, 0x7)
  | .serial => (0xF, 0x8)

/-- A well-formed instruction's encoding has the fixed bits of its row: "a word w selects the row when `w AND mask = match`"
(R91). -/
def EncodedInRow.Statement (i : Instr) : Prop :=
  i.wellFormed = true → encodingBits (encode i) &&& (tableRow i).1 = (tableRow i).2

theorem EncodedInRow.nop : EncodedInRow.Statement .nop := by unfold EncodedInRow.Statement; decide

theorem EncodedInRow.init : EncodedInRow.Statement .init := by unfold EncodedInRow.Statement; decide

theorem EncodedInRow.absorb (b : Byte) : EncodedInRow.Statement (.absorb b) := by
  revert b
  unfold EncodedInRow.Statement
  decide

theorem EncodedInRow.final : EncodedInRow.Statement .final := by unfold EncodedInRow.Statement; decide

theorem EncodedInRow.rdd (arg : Byte) : EncodedInRow.Statement (.rdd arg) := by
  revert arg
  unfold EncodedInRow.Statement
  decide

theorem EncodedInRow.pad : EncodedInRow.Statement .pad := by unfold EncodedInRow.Statement; decide

theorem EncodedInRow.loadw : EncodedInRow.Statement .loadw := by unfold EncodedInRow.Statement; decide

theorem EncodedInRow.expand : EncodedInRow.Statement .expand := by unfold EncodedInRow.Statement; decide

theorem EncodedInRow.loadregs : EncodedInRow.Statement .loadregs := by unfold EncodedInRow.Statement; decide

theorem EncodedInRow.round : EncodedInRow.Statement .round := by unfold EncodedInRow.Statement; decide

theorem EncodedInRow.accum : EncodedInRow.Statement .accum := by unfold EncodedInRow.Statement; decide

theorem EncodedInRow.serial : EncodedInRow.Statement .serial := by unfold EncodedInRow.Statement; decide

end Sys2Proof.Laws
end

