-- ==== Sys2Proof/Laws/Step.lean ====
section
/-! SUPPORT. What one step can do, said once: what each verdict of the decoders means, which step is enabled, and the cases of
a step that goes on. -/

namespace Sys2Proof.Machine

/-- PHASE and the micro-operation it selects (R93). -/
theorem decodePhase_instr_iff {p : BitVec 4} {i : Instr} : decodePhase p = .instr i ↔
    (p = Phase.pad ∧ i = .pad) ∨ (p = Phase.loadw ∧ i = .loadw) ∨ (p = Phase.expand ∧ i = .expand) ∨
    (p = Phase.loadregs ∧ i = .loadregs) ∨ (p = Phase.round ∧ i = .round) ∨ (p = Phase.accum ∧ i = .accum) ∨
    (p = Phase.serial ∧ i = .serial) := by
  constructor
  · intro h
    unfold decodePhase at h
    split_ifs at h <;> simp_all
  · rintro (⟨rfl, rfl⟩ | ⟨rfl, rfl⟩ | ⟨rfl, rfl⟩ | ⟨rfl, rfl⟩ | ⟨rfl, rfl⟩ | ⟨rfl, rfl⟩ | ⟨rfl, rfl⟩) <;> decide

/-- The phases in which the host steps are those whose code selects no micro-operation and is not reserved. -/
theorem decodePhase_host_iff : ∀ {p : BitVec 4}, decodePhase p = .illegal .hostPhase ↔ hostPhase p = true := by decide

/-- The reserved codes. -/
theorem decodePhase_reserved_iff : ∀ {p : BitVec 4}, decodePhase p = .illegal .reservedPhase ↔ 10 ≤ p.toNat := by decide

/-- A PHASE code gives no other verdict than these three. -/
theorem decodePhase_cases (p : BitVec 4) :
    (∃ i, decodePhase p = .instr i) ∨ decodePhase p = .illegal .hostPhase ∨ decodePhase p = .illegal .reservedPhase := by
  unfold decodePhase
  split_ifs <;> simp

/-- A busy phase is one whose code selects a micro-operation. -/
theorem busy_iff_decodePhase {s : State} : s.busy = true ↔ ∃ i, decodePhase s.phase = .instr i := by
  have key : ∀ p : BitVec 4, decide (2 ≤ p ∧ p ≤ 8) = true ↔ decodePhase p ≠ .illegal .hostPhase ∧
      decodePhase p ≠ .illegal .reservedPhase := by decide
  unfold State.busy
  rw [key]
  rcases decodePhase_cases s.phase with ⟨i, h⟩ | h | h <;> simp [h]

/-- Which step is enabled, case by case (R12, R30, R93, R240, R340). -/
theorem select_cases (s : State) :
    (s.rst = true ∧ select s = .reset) ∨
    (s.rst = false ∧ ∃ i, decodePhase s.phase = .instr i ∧ select s = .micro i) ∨
    (s.rst = false ∧ decodePhase s.phase = .illegal .hostPhase ∧
      ((s.cmdValid = true ∧ ∃ i, decodeCmd s.cmd = .instr i ∧ select s = .command i) ∨
        (s.cmdValid = true ∧ (∃ why, decodeCmd s.cmd = .illegal why) ∧ select s = .illegalWord) ∨
        (s.cmdValid = false ∧ select s = .wait))) ∨
    (s.rst = false ∧ decodePhase s.phase = .illegal .reservedPhase ∧ select s = .stuck) := by
  cases hr : s.rst
  · rcases decodePhase_cases s.phase with ⟨i, hi⟩ | hp | hp
    · exact .inr (.inl ⟨rfl, i, hi, by simp [select, hr, hi]⟩)
    · refine .inr (.inr (.inl ⟨rfl, hp, ?_⟩))
      cases hv : s.cmdValid
      · exact .inr (.inr ⟨rfl, by simp [select, selectCommand, hr, hp, hv]⟩)
      · cases hc : decodeCmd s.cmd with
        | instr i => exact .inl ⟨rfl, i, rfl, by simp [select, selectCommand, hr, hp, hv, hc]⟩
        | illegal why => exact .inr (.inl ⟨rfl, ⟨why, rfl⟩, by simp [select, selectCommand, hr, hp, hv, hc]⟩)
    · exact .inr (.inr (.inr ⟨rfl, hp, by simp [select, hr, hp]⟩))
  · exact .inl ⟨rfl, by simp [select, hr]⟩

/-- Reset is selected exactly when the host raises it (R340). -/
theorem select_reset_iff {s : State} : select s = .reset ↔ s.rst = true := by
  rcases select_cases s with ⟨h, e⟩ | ⟨h, i, -, e⟩ | ⟨h, -, ⟨-, i, -, e⟩ | ⟨-, -, e⟩ | ⟨-, e⟩⟩ | ⟨h, -, e⟩ <;> simp [h, e]

/-- A micro-operation is selected exactly when PHASE selects it and there is no reset (R12, R93). -/
theorem select_micro_iff {s : State} {i : Instr} : select s = .micro i ↔ s.rst = false ∧ decodePhase s.phase = .instr i := by
  rcases select_cases s with ⟨h, e⟩ | ⟨h, j, p, e⟩ | ⟨h, p, ⟨-, j, -, e⟩ | ⟨-, -, e⟩ | ⟨-, e⟩⟩ | ⟨h, p, e⟩ <;> simp [*]

/-- A command is selected exactly in the host's phases, with a command on the port and no reset (R240). -/
theorem select_command_iff {s : State} {i : Instr} : select s = .command i ↔
    s.rst = false ∧ hostPhase s.phase = true ∧ s.cmdValid = true ∧ decodeCmd s.cmd = .instr i := by
  rw [← decodePhase_host_iff]
  rcases select_cases s with ⟨h, e⟩ | ⟨h, j, p, e⟩ | ⟨h, p, ⟨v, j, c, e⟩ | ⟨v, ⟨why, c⟩, e⟩ | ⟨v, e⟩⟩ | ⟨h, p, e⟩ <;> simp [*]

/-- An illegal word is selected exactly in the host's phases, on the port and without reset (R246). -/
theorem select_illegalWord_iff {s : State} : select s = .illegalWord ↔
    s.rst = false ∧ hostPhase s.phase = true ∧ s.cmdValid = true ∧ ∃ why, decodeCmd s.cmd = .illegal why := by
  rw [← decodePhase_host_iff]
  rcases select_cases s with ⟨h, e⟩ | ⟨h, j, p, e⟩ | ⟨h, p, ⟨v, j, c, e⟩ | ⟨v, ⟨why, c⟩, e⟩ | ⟨v, e⟩⟩ | ⟨h, p, e⟩ <;> simp [*]

/-- With nothing on the port the host's phases wait (R240, R322). -/
theorem select_wait_iff {s : State} : select s = .wait ↔
    s.rst = false ∧ hostPhase s.phase = true ∧ s.cmdValid = false := by
  rw [← decodePhase_host_iff]
  rcases select_cases s with ⟨h, e⟩ | ⟨h, j, p, e⟩ | ⟨h, p, ⟨v, j, c, e⟩ | ⟨v, ⟨why, c⟩, e⟩ | ⟨v, e⟩⟩ | ⟨h, p, e⟩ <;> simp [*]

/-- A reserved PHASE is stuck, but for reset (R30). -/
theorem select_stuck_iff {s : State} : select s = .stuck ↔ s.rst = false ∧ 10 ≤ s.phase.toNat := by
  rw [← decodePhase_reserved_iff]
  rcases select_cases s with ⟨h, e⟩ | ⟨h, j, p, e⟩ | ⟨h, p, ⟨v, j, c, e⟩ | ⟨v, ⟨why, c⟩, e⟩ | ⟨v, e⟩⟩ | ⟨h, p, e⟩ <;> simp [*]

/-- What the block's step can be when it goes on. -/
theorem blockStep_next {s u : State} (h : blockStep s = .next u) :
    (select s = .reset ∧ u = s.resetStep) ∨ (∃ i, select s = .micro i ∧ exec i s = .next u) ∨
    (∃ i, select s = .command i ∧ exec i s = .next u) ∨ (select s = .illegalWord ∧ u = s.raiseErr .illegal) ∨
    (select s = .wait ∧ u = s.noResponse) := by
  unfold blockStep at h
  cases hs : select s <;> simp_all [State.illegalWord, State.waitStep, eq_comm]

/-- A step that goes on is the block's step followed by the host's part. -/
theorem step_next_iff {s t : State} : step s = .next t ↔ ∃ u, blockStep s = .next u ∧ t = u.driveHost s.heldAfter := by
  unfold step afterStep
  cases blockStep s <;> simp [eq_comm]

/-- A step stops exactly when the block's step does. -/
theorem step_fault_iff {s : State} {f : Fault} : step s = .fault f ↔ blockStep s = .fault f := by
  unfold step afterStep
  cases blockStep s <;> simp

/-- The command words and the commands they decode to (R91, R95). -/
theorem decodeCmd_instr {w : BitVec 16} {i : Instr} (h : decodeCmd w = .instr i) :
    i = .nop ∨ i = .init ∨ i = .absorb (argField w) ∨ i = .final ∨ (i = .rdd (argField w) ∧ argField w < 32) := by
  unfold decodeCmd decodeBare at h
  split_ifs at h <;> simp_all

/-- The fifteen ways the block's step goes on, each with what selects it: the one case split that claims about every step
need. -/
inductive StepCase (s u : State) : Prop
  | reset (hr : s.rst = true) (e : u = s.resetStep)
  | pad (hr : s.rst = false) (hp : s.phase = Phase.pad) (hs : select s = .micro .pad) (e : execPad s = .next u)
  | loadw (hr : s.rst = false) (hp : s.phase = Phase.loadw) (hs : select s = .micro .loadw) (e : execLoadw s = .next u)
  | expand (hr : s.rst = false) (hp : s.phase = Phase.expand) (hs : select s = .micro .expand) (e : execExpand s = .next u)
  | loadregs (hr : s.rst = false) (hp : s.phase = Phase.loadregs) (hs : select s = .micro .loadregs)
      (e : execLoadregs s = .next u)
  | round (hr : s.rst = false) (hp : s.phase = Phase.round) (hs : select s = .micro .round) (e : execRound s = .next u)
  | accum (hr : s.rst = false) (hp : s.phase = Phase.accum) (hs : select s = .micro .accum) (e : execAccum s = .next u)
  | serial (hr : s.rst = false) (hp : s.phase = Phase.serial) (hs : select s = .micro .serial) (e : execSerial s = .next u)
  | nop (hr : s.rst = false) (hp : hostPhase s.phase = true) (hs : select s = .command .nop) (e : execNop s = .next u)
  | init (hr : s.rst = false) (hp : hostPhase s.phase = true) (hs : select s = .command .init) (e : execInit s = .next u)
  | absorb (hr : s.rst = false) (hp : hostPhase s.phase = true) (b : Byte) (hs : select s = .command (.absorb b))
      (e : execAbsorb b s = .next u)
  | final (hr : s.rst = false) (hp : hostPhase s.phase = true) (hs : select s = .command .final) (e : execFinal s = .next u)
  | rdd (hr : s.rst = false) (hp : hostPhase s.phase = true) (arg : Byte) (ha : arg < 32) (hs : select s = .command (.rdd arg))
      (e : execRdd arg s = .next u)
  | illegalWord (hr : s.rst = false) (hp : hostPhase s.phase = true) (hs : select s = .illegalWord) (e : u = s.raiseErr .illegal)
  | wait (hr : s.rst = false) (hp : hostPhase s.phase = true) (hs : select s = .wait) (e : u = s.noResponse)

/-- Every step of the block that goes on is one of the cases. -/
theorem blockStep_case {s u : State} (h : blockStep s = .next u) : StepCase s u := by
  rcases blockStep_next h with ⟨hs, rfl⟩ | ⟨i, hs, e⟩ | ⟨i, hs, e⟩ | ⟨hs, rfl⟩ | ⟨hs, rfl⟩
  · exact .reset (select_reset_iff.1 hs) rfl
  · obtain ⟨hr, hd⟩ := select_micro_iff.1 hs
    rcases decodePhase_instr_iff.1 hd with ⟨hp, rfl⟩ | ⟨hp, rfl⟩ | ⟨hp, rfl⟩ | ⟨hp, rfl⟩ | ⟨hp, rfl⟩ | ⟨hp, rfl⟩ | ⟨hp, rfl⟩
    · exact .pad hr hp hs e
    · exact .loadw hr hp hs e
    · exact .expand hr hp hs e
    · exact .loadregs hr hp hs e
    · exact .round hr hp hs e
    · exact .accum hr hp hs e
    · exact .serial hr hp hs e
  · obtain ⟨hr, hp, -, hd⟩ := select_command_iff.1 hs
    rcases decodeCmd_instr hd with rfl | rfl | rfl | rfl | ⟨rfl, ha⟩
    · exact .nop hr hp hs e
    · exact .init hr hp hs e
    · exact .absorb hr hp _ hs e
    · exact .final hr hp hs e
    · exact .rdd hr hp _ ha hs e
  · obtain ⟨hr, hp, -⟩ := select_illegalWord_iff.1 hs
    exact .illegalWord hr hp hs rfl
  · obtain ⟨hr, hp, -⟩ := select_wait_iff.1 hs
    exact .wait hr hp hs rfl

end Sys2Proof.Machine
end

