-- ==== Sys2Proof/Laws/Run.lean ====
section
/-! SUPPORT. Runs of many steps: one step more, two runs one after the other, and a micro-operation's step while no reset comes. -/

namespace Sys2Proof.Machine

@[simp] theorem runFor_zero (s : State) : runFor 0 s = .next s := rfl

/-- A run takes its first step. -/
theorem runFor_succ {n : Nat} {s t : State} (h : step s = .next t) : runFor (n + 1) s = runFor n t := by
  have h' : Sys2Proof.core.step s = .next t := h
  simp only [runFor, Host.Core.run, h']
  rfl

/-- A run that goes on is followed by another. -/
theorem runFor_add {m n : Nat} {s t : State} (h : runFor m s = .next t) : runFor (m + n) s = runFor n t := by
  induction m generalizing s with
  | zero =>
    cases h
    rw [Nat.zero_add]
  | succ m ih =>
    rw [Nat.succ_add]
    cases hs : step s with
    | next u =>
      rw [runFor_succ hs] at h ⊢
      exact ih h
    | fault r =>
      have h' : Sys2Proof.core.step s = .fault r := hs
      simp only [runFor, Host.Core.run, h'] at h
      cases h
    | refused r =>
      have h' : Sys2Proof.core.step s = .refused r := hs
      simp only [runFor, Host.Core.run, h'] at h
      cases h

/-- The host's part of a step raises no reset that its moves do not hold. -/
theorem NoReset.driveHost {u : State} (held : Bool) (h : ∀ m ∈ u.script, m.raisesReset = false) :
    NoReset (u.driveHost held) := by
  constructor
  · by_contra hr
    obtain ⟨m, hm, e⟩ := State.driveHost_rst (Bool.not_eq_false _ ▸ hr)
    exact Bool.false_ne_true ((h m hm).symm.trans e)
  · exact fun m hm => h m ((State.driveHost_script_suffix u held).subset hm)

/-- While no reset comes, a busy block's step is its micro-operation, and still no reset comes. -/
theorem step_micro {s u : State} {i : Instr} (hn : NoReset s) (hp : decodePhase s.phase = .instr i) (e : exec i s = .next u)
    (hs : u.script = s.script) : step s = .next (u.driveHost s.heldAfter) ∧ NoReset (u.driveHost s.heldAfter) := by
  refine ⟨step_next_iff.2 ⟨u, ?_, rfl⟩, NoReset.driveHost _ (hs ▸ hn.2)⟩
  simp [blockStep, select_micro_iff.2 ⟨hn.1, hp⟩, e]

end Sys2Proof.Machine
end

