-- ==== Sys2Proof/Tests/Slice0.lean ====
section
/-! SUPPORT. The model's own tests: words written out from the spec's encodings, one step on small states with results taken
from the spec's worked examples (95_test_vectors.md, the worked examples of the rules), and, for every statement with hypotheses,
a witness that meets them together. -/

namespace Sys2Proof.Tests

open Sys2Proof Sys2Proof.Machine

/-! ## Small states -/

/-- The reset state with another PHASE. -/
def inPhase (p : BitVec 4) : State := { State.reset with phase := p }

/-- The state of an open message: H = IV, with FILL and LEN given. -/
def inOpen (fill : BitVec 7) (len : BitVec 61) : State := { State.reset with phase := Phase.opened, h := IV, fill := fill, len := len }

/-- A micro-operation's state: its PHASE, T and PADP, with FILL = 64 as while a chunk is processed. -/
def inChunk (p : BitVec 4) (t : BitVec 7) (padp : Padp) : State :=
  { State.reset with phase := p, t := t, padp := padp, fill := 64, h := IV }

/-- PAD's state: PADP, FILL and LEN. -/
def inPad (padp : Padp) (fill : BitVec 7) (len : BitVec 61) : State :=
  { State.reset with phase := Phase.pad, padp := padp, fill := fill, len := len }

/-- DONE, with a digest whose byte 0 is 0xba and byte 31 is 0xad, and PADP as the final period leaves it. -/
def inDone : State :=
  { State.reset with phase := Phase.done, padp := .pl, digest := ((Vector.replicate 32 0).set 0 0xba).set 31 0xad }

/-- A state with a word on the command port. -/
def withWord (s : State) (word : BitVec 16) : State := { s with cmdValid := true, cmd := word }

/-- A state with reset raised. -/
def withRst (s : State) : State := { s with rst := true }

/-- Does the outcome go on, to a state with this property? -/
def goesTo (o : Outcome) (p : State → Bool) : Bool :=
  match o with
  | .next s => p s
  | .fault _ => false
  | .refused _ => false

/-! ## Well-formedness: each check refuses an ill-formed term -/

theorem test_wellFormed_refuses_rdd_32 : (Instr.rdd 0x20).wellFormed = false := by decide
theorem test_wellFormed_refuses_rdd_bit_7 : (Instr.rdd 0x80).wellFormed = false := by decide
theorem test_wellFormed_accepts_rdd_31 : (Instr.rdd 0x1f).wellFormed = true := by decide

/-! ## Decoding: words written out bit by bit from the encoding (R90, R91, R93; V8) -/

theorem test_decode_nop : decodeCmd 0b0000_0000_00000000 = .instr .nop := by decide
theorem test_decode_init : decodeCmd 0b0001_0000_00000000 = .instr .init := by decide
theorem test_decode_absorb : decodeCmd 0b0010_0000_10000001 = .instr (.absorb 0x81) := by decide
theorem test_decode_final : decodeCmd 0b0011_0000_00000000 = .instr .final := by decide
theorem test_decode_rdd : decodeCmd 0b0100_0000_00010010 = .instr (.rdd 18) := by decide
theorem test_decode_pad : decodePhase 0b0010 = .instr .pad := by decide
theorem test_decode_loadw : decodePhase 0b0011 = .instr .loadw := by decide
theorem test_decode_expand : decodePhase 0b0100 = .instr .expand := by decide
theorem test_decode_loadregs : decodePhase 0b0101 = .instr .loadregs := by decide
theorem test_decode_round : decodePhase 0b0110 = .instr .round := by decide
theorem test_decode_accum : decodePhase 0b0111 = .instr .accum := by decide
theorem test_decode_serial : decodePhase 0b1000 = .instr .serial := by decide

/-- V8: NOP with arg ≠ 0; rsv ≠ 0 comes first; RDD 32; op 5. -/
theorem test_decode_illegal_words : decodeCmd 0x0001 = .illegal .argNotZero ∧ decodeCmd 0x2161 = .illegal .reservedBits ∧
    decodeCmd 0x4020 = .illegal .indexOutOfRange ∧ decodeCmd 0x5000 = .illegal .unassignedOp := by decide

/-- The opcode table's own numbering: 16 bits for a command, one byte for a micro-operation. -/
theorem test_decodeTableWord : decodeTableWord 16 0x2061 = some (.absorb 0x61) ∧ decodeTableWord 8 0x6 = some .round ∧
    decodeTableWord 8 0x9 = none := by decide

/-! ## Word functions (95_test_vectors.md section 2) -/

theorem test_rotr_shr : rotr 0x12345678 7 = 0xf02468ac ∧ rotr 0x00000001 1 = 0x80000000 ∧ shr 0x80000000 3 = 0x10000000 := by
  decide
theorem test_sigmas : ssig0 0x12345678 = 0xe7fce6ee ∧ ssig1 0x12345678 = 0xa1f78649 ∧ bsig0 0x6a09e667 = 0xce20b47e ∧
    bsig1 0x510e527f = 0x3587272b := by decide
theorem test_ch_maj : ch 0xffff0000 0x12345678 0x9abcdef0 = 0x1234def0 ∧ maj 0xffff0000 0x12345678 0x9abcdef0 = 0x9abc5670 := by
  decide
theorem test_add32 : add32 [0x7fffffff, 1] = 0x80000000 ∧ add32 [0xffffffff, 0xffffffff] = 0xfffffffe := by decide

/-! ## One step of each instruction -/

/-- R241's worked example: in OPEN with FILL = 3, NOP leaves FILL, LEN and PHASE. -/
theorem test_nop : goesTo (exec .nop (inOpen 3 3))
    (fun t => t.fill == 3 && t.len == 3 && t.phase == Phase.opened && t.h == IV && !t.rspValid) = true := by decide

/-- R242's worked example, from a state with ERRCODE = 2 as well (V10, P5): status 0x01 and H = IV. -/
theorem test_init : goesTo (exec .init { inPhase Phase.idle with errcode := 2 })
    (fun t => t.status == 0x01 && t.h == IV && t.fill == 0 && t.len == 0 && t.padp == .pnone) = true := by decide

/-- R243's worked example: ABSORB 0x61 in OPEN with FILL = 0, LEN = 0. -/
theorem test_absorb : goesTo (exec (.absorb 0x61) (inOpen 0 0))
    (fun t => t.blk[0] == 0x61 && t.fill == 1 && t.len == 1 && t.phase == Phase.opened) = true := by decide

/-- V11: at LEN = 2^61 − 1 ABSORB raises LENOVF, and in IDLE PROTOCOL (P5, first line: status 0x20). -/
theorem test_absorb_refused :
    goesTo (exec (.absorb 0x61) (inOpen 63 (BitVec.allOnes 61))) (fun t => t.status == 0x31 && t.fill == 63) = true ∧
    goesTo (exec (.absorb 0x41) (inPhase Phase.idle)) (fun t => t.status == 0x20) = true := by decide

/-- R244's worked example: FINAL in OPEN with FILL = 3 and LEN = 3 gives status 0x82. -/
theorem test_final : goesTo (exec .final (inOpen 3 3)) (fun t => t.status == 0x82 && t.padp == .p80 && t.fill == 3) = true := by
  decide

/-- R245's worked example: RDD 0 responds 0xba and RDD 31 0xad. -/
theorem test_rdd : goesTo (exec (.rdd 0) inDone) (fun t => t.rspValid && t.rsp == 0xba) = true ∧
    goesTo (exec (.rdd 31) inDone) (fun t => t.rspValid && t.rsp == 0xad && t.phase == Phase.done) = true := by decide

/-- V10: the first error stays; RDD in IDLE raises PROTOCOL, without a response. -/
theorem test_first_error_stays : goesTo (exec (.rdd 0) { inPhase Phase.idle with errcode := 1 })
    (fun t => t.errcode == 1 && !t.rspValid) = true := by decide

/-- R163's worked example, PAD steps 1 and 54 of part 3: 0x80 at BLK[3], and PL set by the step at FILL = 56. -/
theorem test_pad : goesTo (exec .pad (inPad .p80 3 3)) (fun t => t.blk[3] == 0x80 && t.padp == .pz && t.fill == 4) = true ∧
    goesTo (exec .pad (inPad .pz 56 3)) (fun t => t.blk[56] == 0x00 && t.padp == .pl && t.fill == 57) = true := by decide

/-- Part 3, PAD step 61: 0x18 at BLK[63], and the chunk is complete. -/
theorem test_pad_last : goesTo (exec .pad (inPad .pl 63 3))
    (fun t => t.blk[63] == 0x18 && t.padp == .pl && t.fill == 64 && t.phase == Phase.loadw && t.t == 0) = true := by decide

/-- R183's worked example: BLK[0..3] = 61 62 63 80 at T = 0. -/
theorem test_loadw : goesTo
    (exec .loadw { inChunk Phase.loadw 0 .pl with
      blk := ((((Vector.replicate 64 0).set 0 0x61).set 1 0x62).set 2 0x63).set 3 0x80 })
    (fun t => t.w[0] == 0x61626380 && t.t == 1 && t.phase == Phase.loadw) = true := by decide

/-- R183's worked example at T = 15: BLK[60..63] = 00 00 00 18, and the next phase is EXPAND. -/
theorem test_loadw_last : goesTo (exec .loadw { inChunk Phase.loadw 15 .pl with blk := (Vector.replicate 64 0).set 63 0x18 })
    (fun t => t.w[15] == 0x00000018 && t.t == 16 && t.phase == Phase.expand) = true := by decide

/-- R184's worked example at T = 17: W[17] = ssig1(0x18) = 0x000f0000. -/
theorem test_expand : goesTo (exec .expand { inChunk Phase.expand 17 .pl with w := (Vector.replicate 64 0).set 15 0x18 })
    (fun t => t.w[17] == 0x000f0000 && t.t == 18 && t.phase == Phase.expand) = true := by decide

/-- V5's all-ones chunk: W[0..15] = ffffffff gives W[16] = 203ffffc. -/
theorem test_expand_all_ones : goesTo (exec .expand { inChunk Phase.expand 16 .pl with w := Vector.replicate 64 0xffffffff })
    (fun t => t.w[16] == 0x203ffffc) = true := by decide

/-- R200's worked example: A = IV. -/
theorem test_loadregs : goesTo (exec .loadregs (inChunk Phase.loadregs 64 .pl))
    (fun t => t.a == IV && t.t == 0 && t.phase == Phase.round) = true := by decide

/-- V6, row 0: the first round of the chunk of "abc". -/
theorem test_round : goesTo
    (exec .round { inChunk Phase.round 0 .pl with a := IV, w := (Vector.replicate 64 0).set 0 0x61626380 })
    (fun t => t.a == #v[0x5d6aebcd, 0x6a09e667, 0xbb67ae85, 0x3c6ef372, 0xfa2a4622, 0x510e527f, 0x9b05688c, 0x1f83d9ab] &&
      t.t == 1 && t.phase == Phase.round) = true := by decide

/-- V6, row 63: the last round, from row 62 with W[63] = 12b1edeb. -/
theorem test_round_last : goesTo
    (exec .round { inChunk Phase.round 63 .pl with
      a := #v[0xd39a2165, 0x04d24d6c, 0xb85e2ce9, 0xb6ae8fff, 0xfb121210, 0x948d25b6, 0x961f4894, 0xb21bad3d],
      w := (Vector.replicate 64 0).set 63 0x12b1edeb })
    (fun t => t.a == #v[0x506e3058, 0xd39a2165, 0x04d24d6c, 0xb85e2ce9, 0x5ef50f24, 0xfb121210, 0x948d25b6, 0x961f4894] &&
      t.t == 64 && t.phase == Phase.accum) = true := by decide

/-- R220's worked example, V7: the one chunk of "abc". -/
theorem test_accum : goesTo
    (exec .accum { inChunk Phase.accum 64 .pl with
      a := #v[0x506e3058, 0xd39a2165, 0x04d24d6c, 0xb85e2ce9, 0x5ef50f24, 0xfb121210, 0x948d25b6, 0x961f4894] })
    (fun t => t.h == #v[0xba7816bf, 0x8f01cfea, 0x414140de, 0x5dae2223, 0xb00361a3, 0x96177a9c, 0xb410ff61, 0xf20015ad] &&
      t.fill == 0 && t.phase == Phase.serial) = true := by decide

/-- R220: PNONE goes to OPEN and PZ to PAD. -/
theorem test_accum_next_phase : goesTo (exec .accum (inChunk Phase.accum 64 .pnone)) (fun t => t.phase == Phase.opened) = true ∧
    goesTo (exec .accum (inChunk Phase.accum 64 .pz)) (fun t => t.phase == Phase.pad) = true := by decide

/-- R222's worked example, V7: DIGEST[0..3] = ba 78 16 bf and DIGEST[28..31] = f2 00 15 ad. -/
theorem test_serial : goesTo
    (exec .serial { inChunk Phase.serial 64 .pl with
      h := #v[0xba7816bf, 0x8f01cfea, 0x414140de, 0x5dae2223, 0xb00361a3, 0x96177a9c, 0xb410ff61, 0xf20015ad] })
    (fun t => t.digest[0] == 0xba && t.digest[1] == 0x78 && t.digest[2] == 0x16 && t.digest[3] == 0xbf &&
      t.digest[28] == 0xf2 && t.digest[31] == 0xad && t.phase == Phase.done) = true := by decide

/-! ## The machine's step, the padder's functions, the adapter and the script -/

/-- P5: 0x5000 in IDLE raises ILLEGAL; the same word beside `rst` is not accepted (R340). -/
theorem test_step_illegal_word : goesTo (step (withWord (inPhase Phase.idle) 0x5000)) (fun t => t.status == 0x10) = true ∧
    goesTo (step (withRst (withWord (inPhase Phase.idle) 0x5000))) (fun t => t.status == 0x00) = true := by decide

/-- R240: FINAL presented in LOADW is held on the port. -/
theorem test_step_holds_command : goesTo (step (withWord (inChunk Phase.loadw 0 .pnone) 0x3000))
    (fun t => t.cmdValid && t.cmd == 0x3000 && t.phase == Phase.loadw && t.t == 1) = true := by decide

/-- R340: a command begun in the step in which `rst` is raised is not accepted, and is off the port afterwards. -/
theorem test_step_presentReset :
    goesTo (runFor 1 (State.reset.setScript [.presentReset 0x1000])) (fun t => t.rst && t.cmdValid && t.cmd == 0x1000) = true ∧
    goesTo (runFor 2 (State.reset.setScript [.presentReset 0x1000])) (fun t => t.status == 0x00 && !t.cmdValid && !t.rst) = true := by
  decide

/-- R131 and R132, one word of each printed position: K[4..7] and IV[4..7]. -/
theorem test_rom_lines : K[4] = 0x3956c25b ∧ K[5] = 0x59f111f1 ∧ K[6] = 0x923f82a4 ∧ K[7] = 0xab1c5ed5 ∧
    IV[4] = 0x510e527f ∧ IV[6] = 0x1f83d9ab := by decide

/-- Placed in the reset state, ABSORB and ROUND are what the next step runs. -/
theorem test_withFetchWord : select (State.reset.withFetchWord 16 0x2061) = .command (.absorb 0x61) ∧
    select (State.reset.withFetchWord 8 0x6) = .micro .round := by decide

/-- Part 3: zeros and nblocks at 0, 55, 56, 64 and 1000, and lenbyte for LEN = 2^32. -/
theorem test_padding_numbers : zeros 0 = 55 ∧ zeros 55 = 0 ∧ zeros 56 = 63 ∧ zeros 1000 = 15 ∧ nblocks 55 = 1 ∧ nblocks 56 = 2 ∧
    nblocks 1000 = 16 ∧ lenbyte (BitVec.ofNat 61 (2 ^ 32)) 3 = 0x08 := by decide

/-- R310, V3: a value of another type issues no command. -/
theorem test_adapter_other : (hashEntry (fun _ => []) .other).toOption = none := by decide

/-- R97, R98: a line with a comment, a word out of range, and ABSORBX. -/
theorem test_script : parseLine "ABSORB 0x61 # a".toList = .ok (some (.absorb 0x61)) ∧
    (assemble ["ABSORB 256".toList]).toOption = none ∧
    (assemble ["ABSORBX 61 62".toList]).toOption = some [.present 0x2061, .present 0x2062] := by decide

/-! ## Witnesses: for each statement with hypotheses, a state and operands that meet them together, at the boundary values of each
clause. Each is named after the statement it is about. -/

/-- A state that meets the invariant of R39, checked field by field. -/
def invHolds (s : State) : Bool :=
  decide (s.phase.toNat ≤ 9) && decide (s.errcode.toNat ≤ 3) &&
  decide ((hostPhase s.phase = true ∨ s.phase = Phase.pad) → s.fill.toNat ≤ 63) &&
  decide (s.phase = Phase.opened → s.padp = .pnone) &&
  decide (s.phase = Phase.pad → s.padp ≠ .pnone ∧ (s.padp = .pl → 57 ≤ s.fill.toNat)) &&
  decide (s.phase = Phase.loadw → s.t.toNat ≤ 15) &&
  decide (s.phase = Phase.expand → 16 ≤ s.t.toNat ∧ s.t.toNat ≤ 63) && decide (s.phase = Phase.round → s.t.toNat ≤ 63) &&
  decide (chunkPhase s.phase = true → s.padp ≠ .p80 ∧ s.fill = 64) &&
  decide (s.phase = Phase.serial ∨ s.phase = Phase.done → s.padp = .pl ∧ s.fill = 0) &&
  decide (s.phase = Phase.opened → s.fill.toNat = s.len.toNat % 64) &&
  decide (chunkPhase s.phase = true → s.padp = .pnone → s.len.toNat % 64 = 0)

theorem inv_of_invHolds {s : State} (h : invHolds s = true) : Inv s := by
  simp only [invHolds, Bool.and_eq_true, decide_eq_true_eq] at h
  obtain ⟨⟨⟨⟨⟨⟨⟨⟨⟨⟨⟨a, b⟩, c⟩, d⟩, e⟩, f⟩, g⟩, i⟩, j⟩, k⟩, l⟩, m⟩ := h
  exact ⟨a, b, c, d, e, f, g, i, j, k, l, m⟩

/-- With an empty script and `rst` low no reset comes. -/
theorem noReset_of_empty {s : State} (hr : s.rst = false) (hs : s.script = []) : NoReset s := by
  simp [NoReset, hr, hs]

theorem test_witness_EncodedInstructionDecodesToItself : (Instr.rdd 31).wellFormed = true ∧ (Instr.absorb 0xff).wellFormed = true ∧
    Instr.serial.wellFormed = true := by decide

theorem test_witness_DecodingLosesNoBit : decode (.cmd16 0x401f) = .instr (.rdd 31) ∧ decode (.phase4 8) = .instr .serial := by decide

theorem test_witness_IllegalWordsAreTheReservedOnes : ∃ s : State,
    s.rst = false ∧ hostPhase s.phase = true ∧ s.cmdValid = true ∧ ∃ why, decodeCmd s.cmd = .illegal why :=
  ⟨withWord (inPhase Phase.done) 0x40ff, by decide, by decide, by decide, .indexOutOfRange, by decide⟩

theorem test_witness_NopChangesNothing : (0x0001 : Nat) ≤ 0x00ff ∧ decodeCmd 0x0001 = .illegal .argNotZero ∧
    decodeCmd 0x00ff = .illegal .argNotZero := by decide

theorem test_witness_InitOpensAMessage : (inChunk Phase.loadw 0 .pnone).busy = true ∧ (inChunk Phase.serial 0 .pl).busy = true := by
  decide

/-- Each clause: outside OPEN; at the length limit; FILL = 0, FILL = 62 and FILL = 63 with what the last clause asks. -/
theorem test_witness_AbsorbAppendsAByte :
    (inPhase Phase.idle).phase ≠ Phase.opened ∧
    ((inOpen 63 (BitVec.allOnes 61)).phase = Phase.opened ∧ (inOpen 63 (BitVec.allOnes 61)).len.toNat = 2 ^ 61 - 1) ∧
    (∀ f : BitVec 7, f = 0 ∨ f = 62 ∨ f = 63 → (inOpen f 63).phase = Phase.opened ∧ (inOpen f 63).len.toNat ≠ 2 ^ 61 - 1 ∧
      (inOpen f 63).fill.toNat ≤ 63) ∧
    (inOpen 63 63).fill.toNat = 63 ∧ (inOpen 63 63).padp = .pnone ∧ NoReset (inOpen 63 63) :=
  ⟨by decide, by decide, by decide, by decide, by decide, noReset_of_empty rfl rfl⟩

/-- At 2^61 − 1 bytes: all of them 0x00, with H the Hash State they leave. -/
theorem test_witness_LengthOverflowLeavesTheMessage :
    (∃ (m : List Byte) (s : State), Absorbed m s ∧ m.length = 2 ^ 61 - 1) ∧ inDone.phase = Phase.done := by
  refine ⟨?_, by decide⟩
  generalize hn : 2 ^ 61 - 1 = n
  have hlen : (List.replicate n (0 : Byte)).length = n := by simp
  have hmod : n % 64 = 63 := by omega
  refine ⟨List.replicate n 0, { inOpen 63 (BitVec.ofNat 61 n) with h := hashChunks (List.replicate n 0) (n / 64) }, ?_, hlen⟩
  constructor
  · rfl
  · rw [hlen]
    show (BitVec.ofNat 61 n).toNat = n
    rw [BitVec.toNat_ofNat]
    omega
  · rw [hlen, hmod]
    rfl
  · intro i hi _
    rw [hlen]
    show (Vector.replicate 64 (0 : Byte))[i] = _
    rw [Vector.getElem_replicate]
    simp [List.getD_eq_getElem?_getD, List.getElem?_replicate]
    split <;> rfl
  · rfl
  · rw [hlen]

/-- n mod 64 at both sides of the bound 55; and a phase other than OPEN. -/
theorem test_witness_FinalStartsTheFinalPeriod :
    (∀ p : BitVec 7 × BitVec 61, p = (0, 0) ∨ p = (55, 55) ∨ p = (56, 56) ∨ p = (63, 127) →
      (inOpen p.1 p.2).phase = Phase.opened ∧ (inOpen p.1 p.2).fill.toNat = (inOpen p.1 p.2).len.toNat % 64 ∧
        NoReset (inOpen p.1 p.2)) ∧ inDone.phase ≠ Phase.opened := by
  refine ⟨?_, by decide⟩
  rintro p (rfl | rfl | rfl | rfl) <;> exact ⟨rfl, by decide, noReset_of_empty rfl rfl⟩

theorem test_witness_RddRespondsWithTheDigestByte : (0 < 32 ∧ 31 < 32 ∧ inDone.phase = Phase.done) ∧
    (inPhase Phase.idle).phase ≠ Phase.done ∧ (32 : Nat) ≤ 255 := by decide

/-- A busy state; and IDLE, OPEN below and at the length limit, and DONE, in the invariant, with an illegal word on the port. -/
theorem test_witness_CommandsAreLegalByPhase : (inChunk Phase.accum 64 .pl).busy = true ∧
    ∀ s : State, s = inPhase Phase.idle ∨ s = inOpen 5 5 ∨ s = inOpen 63 (BitVec.allOnes 61) ∨ s = inDone →
      Inv (withWord s 0x5000) ∧ hostPhase (withWord s 0x5000).phase = true ∧ (withWord s 0x5000).rst = false ∧
        (withWord s 0x5000).cmdValid = true ∧ decodeCmd (withWord s 0x5000).cmd = .illegal .unassignedOp := by
  refine ⟨by decide, ?_⟩
  rintro s (rfl | rfl | rfl | rfl) <;> exact ⟨inv_of_invHolds (by decide), by decide⟩

theorem test_witness_PadEmitsOneByte : (inPad .p80 63 3).fill.toNat ≤ 63 ∧ (inPad .pz 55 3).fill.toNat ≤ 63 ∧
    (inPad .pz 56 3).fill.toNat ≤ 63 ∧ (inPad .pl 63 3).fill.toNat ≤ 63 := by decide

theorem test_witness_ZeroBytesAreTheFewestThatFit : (56 + 1 + 63) % 64 = 56 ∧ (55 + 1 + 0) % 64 = 56 := by decide

theorem test_witness_PaddingEndsWithTheBitLength : ([0x61, 0x62, 0x63] : List Byte).length < 2 ^ 61 := by decide

theorem test_witness_LoadwCopiesABigEndianWord : (inChunk Phase.loadw 0 .pl).t.toNat ≤ 15 ∧
    (inChunk Phase.loadw 15 .pl).t.toNat ≤ 15 := by decide

theorem test_witness_ExpandDerivesAWord : (16 ≤ (inChunk Phase.expand 16 .pl).t.toNat ∧ (inChunk Phase.expand 16 .pl).t.toNat ≤ 63) ∧
    16 ≤ (inChunk Phase.expand 63 .pl).t.toNat ∧ (inChunk Phase.expand 63 .pl).t.toNat ≤ 63 := by decide

theorem test_witness_SchedulerComputesTheSchedule : (inChunk Phase.loadw 0 .pl).phase = Phase.loadw ∧
    (inChunk Phase.loadw 0 .pl).t = 0 ∧ NoReset (inChunk Phase.loadw 0 .pl) :=
  ⟨rfl, rfl, noReset_of_empty rfl rfl⟩

theorem test_witness_RoundMixesTheWorkingRegisters : (inChunk Phase.round 0 .pl).t.toNat ≤ 63 ∧
    (inChunk Phase.round 63 .pl).t.toNat ≤ 63 := by decide

theorem test_witness_CompressionEngineComputesCompress : (inChunk Phase.loadregs 64 .pl).phase = Phase.loadregs ∧
    NoReset (inChunk Phase.loadregs 64 .pl) := ⟨rfl, noReset_of_empty rfl rfl⟩

theorem test_witness_ChunkPeriodAppliesBlock : (inChunk Phase.loadw 0 .pnone).phase = Phase.loadw ∧
    (inChunk Phase.loadw 0 .pnone).t = 0 ∧ NoReset (inChunk Phase.loadw 0 .pnone) :=
  ⟨rfl, rfl, noReset_of_empty rfl rfl⟩

theorem test_witness_AdditionWrapsInAnyOrder : ([1, 2, 3] : List Word).Perm [3, 1, 2] := by decide

theorem test_witness_RotationKeepsBitsAndShiftDropsThem : (1 ≤ 1 ∧ 1 ≤ 31 ∧ 0 ≤ 31) ∧ (1 ≤ 31 ∧ 31 ≤ 31) := by decide

/-- Each clause: a micro-operation, a command, an illegal word, a wait, and the reserved codes at both ends. -/
theorem test_witness_StepRunsTheDecodedInstruction :
    ((inPad .p80 3 3).rst = false ∧ decodePhase (inPad .p80 3 3).phase = .instr .pad) ∧
    ((withWord (inOpen 0 0) 0x2061).rst = false ∧ hostPhase (withWord (inOpen 0 0) 0x2061).phase = true ∧
      (withWord (inOpen 0 0) 0x2061).cmdValid = true ∧ decodeCmd (withWord (inOpen 0 0) 0x2061).cmd = .instr (.absorb 0x61)) ∧
    (hostPhase (withWord inDone 0xffff).phase = true ∧ decodeCmd (withWord inDone 0xffff).cmd = .illegal .reservedBits) ∧
    (hostPhase (inPhase Phase.idle).phase = true ∧ (inPhase Phase.idle).cmdValid = false) ∧
    ((inPhase 10).rst = false ∧ 10 ≤ (inPhase 10).phase.toNat ∧ 10 ≤ (inPhase 15).phase.toNat) := by decide

theorem test_witness_ResetGivesTheResetState : (withRst (inPhase 15)).rst = true ∧ (withRst (withWord (inOpen 5 5) 0x2061)).rst = true := by
  decide

theorem test_witness_ReservedPhasesOnlyReset : (10 ≤ (inPhase 10).phase.toNat ∧ (inPhase 10).rst = false) ∧
    10 ≤ (withRst (inPhase 15)).phase.toNat ∧ (withRst (inPhase 15)).rst = true := by decide

theorem test_witness_IndicesOutsideTheArraysStop : 16 ≤ (inChunk Phase.loadw 16 .pl).t.toNat ∧
    (inChunk Phase.expand 15 .pl).t.toNat < 16 ∧ 64 ≤ (inChunk Phase.expand 64 .pl).t.toNat ∧
    64 ≤ (inChunk Phase.round 64 .pl).t.toNat ∧ 64 ≤ (inPad .pz 64 3).fill.toNat ∧
    (64 ≤ (inOpen 64 3).fill.toNat ∧ (inOpen 64 3).phase = Phase.opened ∧ (inOpen 64 3).len.toNat ≠ 2 ^ 61 - 1) := by decide

theorem test_witness_BusyBlockHoldsTheCommand : ∃ s t : State, s.busy = true ∧ s.cmdValid = true ∧ s.rst = false ∧ step s = .next t :=
  ⟨withWord (inPad .p80 3 3) 0x3000, _, by decide, by decide, by decide, rfl⟩

theorem test_witness_WaitingKeepsAllState : hostPhase inDone.phase = true ∧ inDone.rst = false ∧ inDone.cmdValid = false := by decide

/-- Both clauses: an accepted INIT and a reset; and a step that records an error. -/
theorem test_witness_FirstErrorIsKeptUntilInitOrReset :
    (∃ s t : State, step s = .next t ∧ select s = .command .init ∧ s.errcode = 2) ∧
    (∃ s t : State, step s = .next t ∧ select s = .reset) ∧ ∃ s t : State, step s = .next t ∧ t.errcode = 1 ∧ s.errcode = 0 :=
  ⟨⟨withWord { inPhase Phase.idle with errcode := 2 } 0x1000, _, rfl, by decide, by decide⟩,
    ⟨withRst (inOpen 3 3), _, rfl, by decide⟩, ⟨withWord (inOpen 3 3) 0x5000, _, rfl, rfl, rfl⟩⟩

theorem test_witness_OnlyRddResponds : ∃ s t : State, step s = .next t ∧ t.rspValid = true :=
  ⟨withWord inDone 0x401f, _, rfl, rfl⟩

/-- Each register changed by a step: H and FILL and LEN by INIT, A by LOADREGS, W by LOADW, BLK and T and PADP by PAD, DIGEST by
SERIAL. -/
theorem test_witness_RegistersAreWrittenOnlyByTheirSteps :
    (∃ s t : State, step s = .next t ∧ s.rst = false ∧ t.h ≠ s.h ∧ t.fill ≠ s.fill ∧ t.len ≠ s.len) ∧
    (∃ s t : State, step s = .next t ∧ s.rst = false ∧ t.a ≠ s.a) ∧
    (∃ s t : State, step s = .next t ∧ s.rst = false ∧ t.w ≠ s.w) ∧
    (∃ s t : State, step s = .next t ∧ s.rst = false ∧ t.blk ≠ s.blk ∧ t.t ≠ s.t ∧ t.padp ≠ s.padp) ∧
    ∃ s t : State, step s = .next t ∧ s.rst = false ∧ t.digest ≠ s.digest := by
  refine ⟨⟨withWord { inOpen 3 3 with h := Vector.replicate 8 0 } 0x1000, _, rfl, rfl, ?_, ?_, ?_⟩,
    ⟨inChunk Phase.loadregs 64 .pl, _, rfl, rfl, ?_⟩,
    ⟨{ inChunk Phase.loadw 0 .pl with blk := Vector.replicate 64 1 }, _, rfl, rfl, ?_⟩,
    ⟨{ inPad .p80 63 3 with t := 5 }, _, rfl, rfl, ?_, ?_, ?_⟩, ⟨inChunk Phase.serial 64 .pl, _, rfl, rfl, ?_⟩⟩ <;> decide

/-- Steps of the rows of R275's table: reset, INIT, NOP, ABSORB below the limit at FILL = 62 and 63, FINAL, RDD in DONE, and the
four ways to raise an error. -/
theorem test_witness_PhaseFollowsTheTransitionTable_host :
    (∃ s t : State, step s = .next t ∧ s.rst = true) ∧ (∃ s t : State, step s = .next t ∧ select s = .command .init) ∧
    (∃ s t : State, step s = .next t ∧ select s = .command .nop) ∧ (∃ s t : State, step s = .next t ∧ select s = .wait) ∧
    (∃ s t : State, step s = .next t ∧ select s = .command (.absorb 0) ∧ s.phase = Phase.opened ∧ s.len.toNat ≠ 2 ^ 61 - 1 ∧
      s.fill.toNat = 62) ∧
    (∃ s t : State, step s = .next t ∧ select s = .command (.absorb 0) ∧ s.phase = Phase.opened ∧ s.len.toNat ≠ 2 ^ 61 - 1 ∧
      s.fill.toNat = 63) ∧
    (∃ s t : State, step s = .next t ∧ select s = .command .final ∧ s.phase = Phase.opened) ∧
    (∃ s t : State, step s = .next t ∧ select s = .command (.rdd 0) ∧ s.phase = Phase.done) ∧
    (∃ s t : State, step s = .next t ∧ select s = .illegalWord) ∧
    (∃ s t : State, step s = .next t ∧ s.phase ≠ Phase.opened ∧ select s = .command .final) ∧
    (∃ s t : State, step s = .next t ∧ s.phase ≠ Phase.done ∧ select s = .command (.rdd 0)) ∧
    ∃ s t : State, step s = .next t ∧ s.phase = Phase.opened ∧ s.len.toNat = 2 ^ 61 - 1 ∧ select s = .command (.absorb 0) :=
  ⟨⟨withRst (inOpen 3 3), _, rfl, by decide⟩, ⟨withWord (inOpen 3 3) 0x1000, _, rfl, by decide⟩,
    ⟨withWord inDone 0x0000, _, rfl, by decide⟩, ⟨inDone, _, rfl, by decide⟩,
    ⟨withWord (inOpen 62 62) 0x2000, _, rfl, by decide⟩, ⟨withWord (inOpen 63 63) 0x2000, _, rfl, by decide⟩,
    ⟨withWord (inOpen 3 3) 0x3000, _, rfl, by decide⟩, ⟨withWord inDone 0x4000, _, rfl, by decide⟩,
    ⟨withWord inDone 0x5000, _, rfl, by decide⟩, ⟨withWord inDone 0x3000, _, rfl, by decide⟩,
    ⟨withWord (inOpen 3 3) 0x4000, _, rfl, by decide⟩, ⟨withWord (inOpen 63 (BitVec.allOnes 61)) 0x2000, _, rfl, by decide⟩⟩

/-- Steps of the rows of the busy phases, at the last index of each and before it. -/
theorem test_witness_PhaseFollowsTheTransitionTable_busy :
    ∀ s : State, s = inPad .pz 62 3 ∨ s = inPad .pl 63 3 ∨ s = inChunk Phase.loadw 14 .pl ∨ s = inChunk Phase.loadw 15 .pl ∨
        s = inChunk Phase.expand 62 .pl ∨ s = inChunk Phase.expand 63 .pl ∨ s = inChunk Phase.loadregs 64 .pl ∨
        s = inChunk Phase.round 62 .pl ∨ s = inChunk Phase.round 63 .pl ∨ s = inChunk Phase.accum 64 .pnone ∨
        s = inChunk Phase.accum 64 .pl ∨ s = inChunk Phase.accum 64 .pz ∨ s = inChunk Phase.serial 64 .pl →
      s.rst = false ∧ s.busy = true ∧ ∃ t, step s = .next t := by
  rintro s (rfl | rfl | rfl | rfl | rfl | rfl | rfl | rfl | rfl | rfl | rfl | rfl | rfl) <;> exact ⟨rfl, by decide, _, rfl⟩

/-- A phase left by INIT from IDLE, by reset, by SERIAL, and entered by the ACCUM of the last chunk. -/
theorem test_witness_PhasesAreEnteredOnlyByTheirOwnSteps :
    (∃ s t : State, step s = .next t ∧ t.phase ≠ s.phase ∧ s.phase = Phase.idle) ∧
    (∃ s t : State, step s = .next t ∧ t.phase ≠ s.phase ∧ t.phase = Phase.idle) ∧
    (∃ s t : State, step s = .next t ∧ t.phase ≠ s.phase ∧ t.phase = Phase.done) ∧
    ∃ s t : State, step s = .next t ∧ t.phase ≠ s.phase ∧ t.phase = Phase.serial ∧ s.busy = true :=
  ⟨⟨withWord (inPhase Phase.idle) 0x1000, _, rfl, by decide⟩, ⟨withRst (inOpen 3 3), _, rfl, by decide⟩,
    ⟨inChunk Phase.serial 64 .pl, _, rfl, by decide⟩, ⟨inChunk Phase.accum 64 .pl, _, rfl, by decide⟩⟩

theorem test_witness_MeaningsLeaveTheHostAlone : ∃ t, exec .pad (inPad .p80 3 3) = .next t := ⟨_, rfl⟩

theorem test_witness_EveryStepKeepsTheInvariant : ∃ s t : State, Inv s ∧ s.phase = Phase.pad ∧ step s = .next t :=
  ⟨inPad .p80 63 63, _, inv_of_invHolds (by decide), rfl, rfl⟩

/-- The step that enters DONE, and a step that stays there with the digest of its H. -/
theorem test_witness_DoneHoldsTheSerialisedHashState :
    (∃ s t : State, (s.phase = Phase.done → s.digest = serialize s.h) ∧ step s = .next t ∧ t.phase = Phase.done ∧
      s.phase ≠ Phase.done) ∧
    ∃ s t : State, s.phase = Phase.done ∧ s.digest = serialize s.h ∧ step s = .next t ∧ t.phase = Phase.done :=
  ⟨⟨inChunk Phase.serial 64 .pl, _, by decide, rfl, rfl, by decide⟩,
    ⟨{ inDone with h := IV, digest := serialize IV }, _, rfl, rfl, rfl, rfl⟩⟩

theorem test_witness_ReachableStatesMeetTheInvariant : ∃ s : State, Reachable s ∧ s.phase = Phase.opened :=
  ⟨_, .next (.next (.start [.present 0x1000]) rfl) rfl, rfl⟩

theorem test_witness_InvariantStatesAlwaysStep : Inv (inPad .pl 57 3) ∧ Inv (inChunk Phase.expand 63 .pz) :=
  ⟨inv_of_invHolds (by decide), inv_of_invHolds (by decide)⟩

/-- The longest busy period, 333 steps, starts here (R276). -/
theorem test_witness_BusyPeriodsEndWithin333Steps : Inv (inPad .p80 56 56) ∧ (inPad .p80 56 56).busy = true ∧
    NoReset (inPad .p80 56 56) := ⟨inv_of_invHolds (by decide), by decide, noReset_of_empty rfl rfl⟩

/-- Two states of OPEN that differ in A, W, DIGEST, BLK above FILL, `rsp`, `cmd` and the draws. -/
theorem test_witness_UnwrittenStateIsNeverObserved : ∃ s t : State, SameVisible s t ∧ s.phase = Phase.opened ∧ s.a ≠ t.a ∧
    s.w ≠ t.w ∧ s.digest ≠ t.digest ∧ s.blk ≠ t.blk ∧ s.rsp ≠ t.rsp ∧ s.cmd ≠ t.cmd := by
  refine ⟨inOpen 1 1, { inOpen 1 1 with
    a := Vector.replicate 8 1, w := Vector.replicate 64 1, digest := Vector.replicate 32 1,
    blk := (Vector.replicate 64 1).set 0 0, rsp := 1, cmd := 1, draws := 7 }, ?_, ?_⟩
  · constructor <;> first | rfl | decide
  · decide

theorem test_witness_ResetForgetsEverything : ∃ s t : State, s.rst = true ∧ t.rst = true ∧ s.script = t.script ∧ s.w ≠ t.w :=
  ⟨withRst (inOpen 3 3), withRst { inPhase 15 with w := Vector.replicate 64 1 }, rfl, rfl, rfl, by decide⟩

/-- The state of OPEN after no byte. -/
theorem absorbed_nil : Absorbed [] (withWord (inOpen 0 0) 0x20ff) := by
  constructor <;> first | rfl | exact fun i _ h => absurd h (Nat.not_lt_zero i)

theorem test_witness_AbsorbedBytesAreTheMessage : (∃ s t : State, exec .init s = .next t) ∧
    (∃ (m : List Byte) (s t : State), Absorbed m s ∧ exec .nop s = .next t) ∧
    ∃ (m : List Byte) (b : Byte) (s : State), Absorbed m s ∧ m.length < 2 ^ 61 - 1 ∧ NoReset s ∧ s.cmdValid = true ∧
      s.cmd = 0x2000 + b.zeroExtend 16 :=
  ⟨⟨State.reset, _, rfl⟩, ⟨[], _, _, absorbed_nil, rfl⟩,
    ⟨[], 0xff, _, absorbed_nil, by decide, noReset_of_empty rfl rfl, rfl, by decide⟩⟩

theorem test_witness_PadderCompletesThePaddedMessage : ∃ (m : List Byte) (s t : State), Absorbed m s ∧ m.length ≤ 2 ^ 61 - 1 ∧
    NoReset s ∧ exec .final s = .next t := ⟨[], _, _, absorbed_nil, by decide, noReset_of_empty rfl rfl, rfl⟩

/-- "abc", with a wait and a NOP in between, from the reset state. -/
theorem test_witness_BlockComputesSha256 : ∃ (m : List Byte) (s : State), m.length ≤ 2 ^ 61 - 1 ∧ Inv s ∧
    hostPhase s.phase = true ∧ s.rst = false ∧ s.cmdValid = false ∧ Sends s.script (sendCommands m) ∧ m = [0x61, 0x62, 0x63] :=
  ⟨[0x61, 0x62, 0x63], State.reset.setScript
      [.wait, .present 0x1000, .present 0x2061, .present 0x0000, .present 0x2062, .wait, .present 0x2063, .present 0x3000],
    by decide, inv_of_invHolds (by decide), by decide, by decide, by decide, by unfold Sends; decide, rfl⟩

/-- Both length clauses: a message of 2^61 bytes, and the empty one. -/
theorem test_witness_AdapterRefusesOnlyWhatItMust : (∃ m : List Byte, 2 ^ 61 - 1 < m.length) ∧ ([] : List Byte).length ≤ 2 ^ 61 - 1 := by
  refine ⟨?_, by decide⟩
  generalize 2 ^ 61 - 1 = n
  exact ⟨List.replicate (n + 1) 0, by simp⟩

theorem test_witness_AdapterReturnsTheDigest : ∃ (textToBytes : List Char → List Byte) (m : List Byte) (moves : List HostMove)
    (s : State), hashEntry textToBytes (.rawBytes m) = .ok moves ∧ Inv s ∧ hostPhase s.phase = true ∧ s.rst = false ∧
      s.cmdValid = false ∧ s.script = moves :=
  ⟨fun _ => [], [0x61], (sendCommands [0x61] ++ readCommands).map presentMove,
    State.reset.setScript ((sendCommands [0x61] ++ readCommands).map presentMove), by simp [hashEntry],
    inv_of_invHolds (by decide), by decide, by decide, by decide, rfl⟩

theorem test_witness_ScriptLinesStandForTheirWords : ∀ c ∈ ['a', ' ', '~'], literalChar c = true := by
  simp [literalChar]

end Sys2Proof.Tests
end

section
/-! SUPPORT. The predicates and outputs of Machine/Flags.lean said by number (R33, R34), the reset step as a whole (R340),
and the statements about them. -/

namespace Sys2Proof.Machine

/-! The outputs `status` and `cmd_ready`, and the predicates BUSY, DV and ERR. -/

theorem State.busy_iff_phase_range {s : State} : s.busy = true ↔ 2 ≤ s.phase.toNat ∧ s.phase.toNat ≤ 8 := by
  simp [State.busy, BitVec.le_def]

theorem State.dv_iff_phase_nine {s : State} : s.dv = true ↔ s.phase.toNat = 9 := by
  simp [State.dv, BitVec.toNat_eq]

theorem State.err_iff_errcode_ne_zero {s : State} : s.err = true ↔ s.errcode.toNat ≠ 0 := by
  simp [State.err, BitVec.toNat_eq]

theorem State.status_getLsbD_seven (s : State) : s.status.getLsbD 7 = s.busy := by
  show BitVec.getLsbD (w := 1 + 3 + 4) (BitVec.ofBool s.busy ++ s.errcode ++ s.phase) 7 = s.busy
  rw [BitVec.getLsbD_append, BitVec.getLsbD_append]
  simp

theorem State.status_extract_errcode (s : State) : s.status.extractLsb' 4 3 = s.errcode :=
  calc s.status.extractLsb' 4 3
    _ = (BitVec.ofBool s.busy ++ s.errcode).extractLsb' 0 3 := BitVec.extractLsb'_append_eq_of_le (le_refl 4)
    _ = s.errcode := BitVec.extractLsb'_append_eq_right

theorem State.status_extract_phase (s : State) : s.status.extractLsb' 0 4 = s.phase :=
  BitVec.extractLsb'_append_eq_right (a := BitVec.ofBool s.busy ++ s.errcode)

/-! In IDLE without an error the outputs are those of R43. -/

theorem State.cmdReady_of_idle {s : State} (hp : s.phase = Phase.idle) : s.cmdReady = true := by
  simp [State.cmdReady, State.busy, hp]

theorem State.status_of_idle {s : State} (hp : s.phase = Phase.idle) (he : s.errcode = 0) : s.status = 0x00 := by
  have notBusy : s.busy = false := by simp [State.busy, hp]
  rw [State.status, notBusy, hp, he]
  rfl

/-! The reset step goes on from every state, and holds no command (R340). -/

theorem State.heldAfter_of_rst {s : State} (hr : s.rst = true) : s.heldAfter = false := by
  simp [State.heldAfter, hr]

theorem step_of_rst {s : State} (hr : s.rst = true) : step s = .next (s.resetStep.driveHost false) := by
  have hb : blockStep s = .next s.resetStep := by simp [blockStep, select_reset_iff.2 hr]
  exact step_next_iff.2 ⟨_, hb, by rw [State.heldAfter_of_rst hr]⟩

/-- Settles O33: R43's registers are what `resetStep` writes, the host's part of the step leaves them alone, and `cmd_ready`
and `status` follow from PHASE = IDLE and ERRCODE = 0. -/
theorem resetGivesTheResetState : Obligations.ResetGivesTheResetState := by
  unfold Obligations.ResetGivesTheResetState
  constructor
  · exact ⟨rfl, rfl, rfl, rfl, rfl, rfl, State.cmdReady_of_idle rfl, rfl, State.status_of_idle rfl rfl⟩
  · intro s hr
    have hp : (s.resetStep.driveHost false).phase = Phase.idle := by simp
    have he : (s.resetStep.driveHost false).errcode = 0 := by simp
    refine ⟨_, step_of_rst hr, hp, he, ?_, ?_, ?_, ?_, State.cmdReady_of_idle hp, ?_, State.status_of_idle hp he⟩ <;> simp

/-- Settles O36: bit 7 of `status` is BUSY, and BUSY, DV and ERR are the ranges of the codes R34 gives. -/
theorem statusShowsBusyErrorAndPhase : Obligations.StatusShowsBusyErrorAndPhase := by
  unfold Obligations.StatusShowsBusyErrorAndPhase
  intro s
  rw [State.status_getLsbD_seven]
  exact ⟨State.busy_iff_phase_range, State.status_extract_errcode s, State.status_extract_phase s, rfl,
    State.dv_iff_phase_nine, State.err_iff_errcode_ne_zero⟩

end Sys2Proof.Machine
end

section
/-! SUPPORT. The words that decode to no command, said by field and then by number (R95, R96), what an erroring command does
(R301), and the statement about them. -/

namespace Sys2Proof

open Sys2Proof.Machine

theorem decodeBare_illegal_iff {i : Instr} {arg : Byte} : (∃ why, decodeBare i arg = .illegal why) ↔ arg ≠ 0 := by
  unfold decodeBare
  split <;> simp_all

/-- The failing checks of R95, field by field. -/
theorem decodeCmd_illegal_iff_fields {w : BitVec 16} : (∃ why, decodeCmd w = .illegal why) ↔
    rsvField w ≠ 0 ∨ ((opField w = 0x0 ∨ opField w = 0x1 ∨ opField w = 0x3) ∧ argField w ≠ 0) ∨
    (opField w = 0x4 ∧ ¬ argField w < 32) ∨ 5 ≤ opField w := by
  unfold decodeCmd
  split_ifs with hrsv h0 h1 h2 h3 h4 harg
  · exact iff_of_true ⟨_, rfl⟩ (.inl hrsv)
  · simp_all [decodeBare_illegal_iff]
  · simp_all [decodeBare_illegal_iff]
  · simp_all
  · simp_all [decodeBare_illegal_iff]
  · simp_all
  · exact iff_of_true ⟨_, rfl⟩ (.inr (.inr (.inl ⟨h4, harg⟩)))
  · have hop : 5 ≤ opField w := by bv_omega
    exact iff_of_true ⟨_, rfl⟩ (.inr (.inr (.inr hop)))

/-- The same words by number, as R96 lists them. -/
theorem decodeCmd_illegal_iff_toNat (w : BitVec 16) : (∃ why, decodeCmd w = .illegal why) ↔
    (w.toNat / 256 % 16 ≠ 0 ∨ 5 ≤ w.toNat / 4096 ∨ (0x0001 ≤ w.toNat ∧ w.toNat ≤ 0x00FF) ∨
      (0x1001 ≤ w.toNat ∧ w.toNat ≤ 0x10FF) ∨ (0x3001 ≤ w.toNat ∧ w.toNat ≤ 0x30FF) ∨
      (0x4020 ≤ w.toNat ∧ w.toNat ≤ 0x40FF)) := by
  rw [decodeCmd_illegal_iff_fields]
  simp only [ne_eq, BitVec.ofNat_eq_ofNat, ← BitVec.toNat_inj, BitVec.lt_def, BitVec.le_def, toNat_rsvField, toNat_opField, toNat_argField,
    BitVec.toNat_ofNat]
  omega

end Sys2Proof

namespace Sys2Proof.Machine

/-- The shared error operation is an erroring command's whole outcome (R301). -/
theorem raisesOnly_raiseErr (e : Err) (s : State) : RaisesOnly e s (.next (s.raiseErr e)) := by
  refine ⟨s.raiseErr e, rfl, ?_⟩
  simp [SameArrays, SameHost]

/-- The acceptance of an illegal word, in any phase in which the host steps (R246). -/
theorem blockStep_of_illegal_word {s : State} (hr : s.rst = false) (hp : hostPhase s.phase = true) (hv : s.cmdValid = true)
    (hw : ∃ why, decodeCmd s.cmd = .illegal why) : blockStep s = .next (s.raiseErr .illegal) := by
  have hs : select s = .illegalWord := select_illegalWord_iff.2 ⟨hr, hp, hv, hw⟩
  simp [blockStep, hs, State.illegalWord]

/-- Settles O5: R95's checks by field give R96's list by number, and an accepted illegal word is `raiseErr .illegal`. -/
theorem illegalWordsAreTheReservedOnes : Obligations.IllegalWordsAreTheReservedOnes := by
  unfold Obligations.IllegalWordsAreTheReservedOnes
  refine ⟨decodeCmd_illegal_iff_toNat, ?_, by decide, ?_⟩
  · intro s hr hp hv hw
    rw [blockStep_of_illegal_word hr hp hv hw]
    exact raisesOnly_raiseErr .illegal s
  · exact ⟨.reservedBits, by decide⟩

end Sys2Proof.Machine
end

section
/-! SUPPORT. The rotation and the logical shift as operations on bits and on natural numbers (R121, R122), and the statements
about them and about the four functions that mix them (R125 to R128). -/

namespace Sys2Proof.Machine

/-- The right shift supplies the bits that stay below position 32, the left shift those that wrap around. -/
theorem rotr_getLsbD (x : Word) {n i : Nat} (hn : n ≤ 31) (hi : i ≤ 31) :
    (rotr x n).getLsbD i = x.getLsbD ((i + n) % 32) := by
  rw [rotr, BitVec.getLsbD_or, BitVec.getLsbD_ushiftRight, BitVec.getLsbD_shiftLeft, Nat.add_comm n i]
  by_cases hstay : i + n < 32
  · have hbelow : i < 32 - n := by omega
    simp [Nat.mod_eq_of_lt hstay, hbelow]
  · have hpast : x.getLsbD (i + n) = false := BitVec.getLsbD_of_ge x (i + n) (by omega)
    have hwrap : (i + n) % 32 = i - (32 - n) := by omega
    have habove : ¬ i < 32 - n := by omega
    have hi32 : i < 32 := by omega
    simp [hpast, hwrap, habove, hi32]

/-- The mask acts on the left shift alone: the right shift already fits in 32 bits. -/
theorem rotr_toNat (x : Word) (n : Nat) :
    (rotr x n).toNat = ((x.toNat >>> n) ||| (x.toNat <<< (32 - n))) % 2 ^ 32 := by
  have hfits : (x.toNat >>> n) % 2 ^ 32 = x.toNat >>> n :=
    Nat.mod_eq_of_lt (Nat.lt_of_le_of_lt (Nat.shiftRight_le x.toNat n) x.isLt)
  rw [rotr, BitVec.toNat_or, BitVec.toNat_ushiftRight, BitVec.toNat_shiftLeft, Nat.or_mod_two_pow, hfits]

theorem shr_getLsbD (x : Word) (n i : Nat) :
    (shr x n).getLsbD i = (decide (i + n ≤ 31) && x.getLsbD (i + n)) := by
  rw [shr, BitVec.getLsbD_ushiftRight, Nat.add_comm n i]
  by_cases hstay : i + n ≤ 31
  · simp [hstay]
  · have hpast : x.getLsbD (i + n) = false := BitVec.getLsbD_of_ge x (i + n) (by omega)
    simp [hpast]

theorem shr_toNat (x : Word) (n : Nat) : (shr x n).toNat = x.toNat / 2 ^ n := by
  rw [shr, BitVec.toNat_ushiftRight, Nat.shiftRight_eq_div_pow]

/-- Settles O28: the bit and the integer form of each of the two operations. -/
theorem rotationKeepsBitsAndShiftDropsThem : Obligations.RotationKeepsBitsAndShiftDropsThem := by
  unfold Obligations.RotationKeepsBitsAndShiftDropsThem
  intro x n i _ hn hi
  refine ⟨rotr_getLsbD x hn hi, rotr_toNat x n, ?_, shr_toNat x n⟩
  rw [shr_getLsbD]
  split <;> simp [*]

/-- Settles O29: exclusive or acts bit by bit, and each rotation or shift brings its one bit to position i. -/
theorem sigmasMixThreeBits : Obligations.SigmasMixThreeBits := by
  unfold Obligations.SigmasMixThreeBits
  intro x i hi
  have hrot {n : Nat} (hn : n ≤ 31) : (rotr x n).getLsbD i = x.getLsbD ((i + n) % 32) := rotr_getLsbD x hn hi
  refine ⟨?_, ?_, ?_, ?_⟩
  · rw [ssig0, BitVec.getLsbD_xor, BitVec.getLsbD_xor, hrot (by decide), hrot (by decide), shr_getLsbD]
  · rw [ssig1, BitVec.getLsbD_xor, BitVec.getLsbD_xor, hrot (by decide), hrot (by decide), shr_getLsbD]
  · rw [bsig0, BitVec.getLsbD_xor, BitVec.getLsbD_xor, hrot (by decide), hrot (by decide), hrot (by decide)]
  · rw [bsig1, BitVec.getLsbD_xor, BitVec.getLsbD_xor, hrot (by decide), hrot (by decide), hrot (by decide)]

end Sys2Proof.Machine
end

section
/-! SUPPORT. The padder: the length field and its bytes as numbers (R162), the byte PAD selects and the write that emits it
(R163), and the statements about them. -/

namespace Sys2Proof.Machine

/-! The length field `LEN ‖ 000` and its bytes. -/

/-- Three zero bits below a number multiply it by eight. -/
theorem toNat_append_threeZeros {w : Nat} (x : BitVec w) : (x ++ (0 : BitVec 3)).toNat = 8 * x.toNat :=
  calc (x ++ (0 : BitVec 3)).toNat
    _ = x.toNat <<< 3 ||| 0 := BitVec.toNat_append x 0
    _ = 8 * x.toNat := by rw [Nat.or_zero, Nat.shiftLeft_eq, Nat.mul_comm]

theorem lengthField_toNat (len : BitVec 61) : (lengthField len).toNat = 8 * len.toNat :=
  toNat_append_threeZeros len

theorem lenbyte_toNat (len : BitVec 61) (j : BitVec 3) :
    (lenbyte len j).toNat = 8 * len.toNat / 2 ^ (56 - 8 * j.toNat) % 256 := by
  rw [lenbyte, BitVec.extractLsb'_toNat, lengthField_toNat, Nat.shiftRight_eq_div_pow]

/-- The last byte holds the three zeros that make LEN a number of bits. -/
theorem lenbyte_seven (len : BitVec 61) : lenbyte len 7 = len.extractLsb' 0 5 ++ (0 : BitVec 3) := by
  apply BitVec.eq_of_toNat_eq
  calc (lenbyte len 7).toNat
    _ = 8 * len.toNat % 256 := by simpa using lenbyte_toNat len 7
    _ = 8 * (len.toNat % 32) := Nat.mul_mod_mul_left 8 len.toNat 32
    _ = (len.extractLsb' 0 5 ++ (0 : BitVec 3)).toNat := by
      rw [toNat_append_threeZeros, BitVec.extractLsb'_toNat, Nat.shiftRight_zero]

theorem lenbyte_zero (len : BitVec 61) : lenbyte len 0 = len.extractLsb' 53 8 :=
  BitVec.extractLsb'_append_eq_of_le (by decide : 3 ≤ 56)

/-- Settles O14: the length field is 8·LEN, and each byte of it is a quotient of that number. -/
theorem lengthBytesSpellTheBitLength : Obligations.LengthBytesSpellTheBitLength := by
  unfold Obligations.LengthBytesSpellTheBitLength
  intro len
  exact ⟨lengthField_toNat len, lenbyte_toNat len, lenbyte_seven len, lenbyte_zero len⟩

/-! The byte PAD selects. -/

/-- FILL[2:0] counts the bytes of the length field. -/
theorem lenbyte_fill_toNat (fill : BitVec 7) (len : BitVec 61) : (lenbyte len (fill.extractLsb' 0 3)).toNat =
    8 * len.toNat / 2 ^ (56 - 8 * (fill.toNat % 8)) % 256 := by
  rw [lenbyte_toNat, BitVec.extractLsb'_toNat, Nat.shiftRight_zero]

/-- The selection by number, as R163's chain of conditions. -/
theorem padSelect_cases (padp : Padp) (fill : BitVec 7) (len : BitVec 61) :
    if padp = .p80 ∨ padp = .pnone then (padSelect padp fill len).1 = 0x80 ∧ (padSelect padp fill len).2 = .pz
    else if padp = .pz ∧ fill.toNat ≠ 56 then (padSelect padp fill len).1 = 0x00 ∧ (padSelect padp fill len).2 = .pz
    else (padSelect padp fill len).1.toNat = 8 * len.toNat / 2 ^ (56 - 8 * (fill.toNat % 8)) % 256 ∧
      (padSelect padp fill len).2 = .pl := by
  have hfill : fill ≠ 56 ↔ fill.toNat ≠ 56 := by bv_omega
  simp only [padSelect, hfill]
  split_ifs with hfirst hzeros
  · exact ⟨rfl, rfl⟩
  · exact ⟨rfl, rfl⟩
  · exact ⟨lenbyte_fill_toNat fill len, rfl⟩

/-! The byte write: what it does to the chunk and the counters, and its frame. -/

theorem State.putByte_writes {s : State} (stay : BitVec 4) (v : Byte) (hf : s.fill.toNat ≤ 63) :
    ∃ t, s.putByte stay v = .next t ∧
      (∀ (j : Nat) (hj : j < 64), t.blk[j] = if j = s.fill.toNat then v else s.blk[j]) ∧
      t.fill.toNat = s.fill.toNat + 1 ∧
      (if s.fill.toNat = 63 then t.phase = Phase.loadw ∧ t.t = 0 else t.phase = stay ∧ t.t = s.t) ∧
      t.h = s.h ∧ t.a = s.a ∧ t.w = s.w ∧ t.digest = s.digest ∧ t.len = s.len ∧ t.padp = s.padp ∧
      t.errcode = s.errcode ∧ SameHost s t ∧ t.rspValid = s.rspValid := by
  have hnowrap : (s.fill.toNat + 1) % 128 = s.fill.toNat + 1 := Nat.mod_eq_of_lt (by omega)
  refine ⟨_, State.putByte_of_lt stay v (Nat.lt_succ_of_le hf), ?_⟩
  split_ifs with hlast <;> simp [hnowrap, SameHost, Vector.getElem_set, eq_comm]

/-- Settles O13: PAD is the byte write of the selected byte, from the state with PADP advanced. -/
theorem padEmitsOneByte : Obligations.PadEmitsOneByte := by
  unfold Obligations.PadEmitsOneByte
  intro s hf
  let sel := padSelect s.padp s.fill s.len
  obtain ⟨t, hnext, hblk, hfill, hphase, hh, ha, hw, hdigest, hlen, hpadp, herr, hhost, hrsp⟩ :=
    State.putByte_writes (s := s.noResponse.setPadp sel.2) Phase.pad sel.1 hf
  refine ⟨sel.1, t, hnext, ?_, hblk, hfill, hphase, hh, ha, hw, hdigest, hlen, herr, hhost, hrsp⟩
  rw [hpadp]
  exact padSelect_cases s.padp s.fill s.len

end Sys2Proof.Machine
end

section
/-! SUPPORT. The block scheduler: a big-endian word as a number (R10, R64), the recurrence as a sum of words (R180), the words of
a chunk's schedule, the steps that store one word at W[T], and the statements about them. -/

namespace Sys2Proof.Machine

/-! Word sums and big-endian words. -/

@[simp] theorem add32_nil : add32 [] = 0 := rfl

@[simp] theorem add32_cons (x : Word) (xs : List Word) : add32 (x :: xs) = x + add32 xs := by
  rw [add32, add32, List.map_cons, List.sum_cons, BitVec.ofNat_add, BitVec.ofNat_toNat, BitVec.setWidth_eq]

theorem scheduleWord_eq_sum (w : Vector Word 64) {i : Nat} (lo : 16 ≤ i) (hi : i < 64) :
    scheduleWord w i lo hi = w[i - 16] + ssig0 w[i - 15] + w[i - 7] + ssig1 w[i - 2] := by
  simp [scheduleWord, BitVec.add_assoc]

/-- A byte put below a number multiplies it by 256. -/
theorem toNat_append_byte {n : Nat} (x : BitVec n) (b : Byte) : (x ++ b).toNat = 2 ^ 8 * x.toNat + b.toNat := by
  rw [BitVec.toNat_append, ← Nat.shiftLeft_add_eq_or_of_lt b.isLt, Nat.shiftLeft_eq, Nat.mul_comm]

theorem memRead_toNat (blk : Vector Byte 64) {j : Nat} (hj : j + 3 < 64) :
    (memRead blk j hj).toNat = 2 ^ 24 * blk[j].toNat + 2 ^ 16 * blk[j + 1].toNat + 2 ^ 8 * blk[j + 2].toNat +
      blk[j + 3].toNat := by
  rw [memRead, toNat_append_byte, toNat_append_byte, toNat_append_byte]
  omega

/-! The words of a chunk's schedule: deriving a word leaves the words below it alone. -/

/-- The recurrence looks only at words of smaller index. -/
theorem scheduleWord_congr {v w : Vector Word 64} {i : Nat} (lo : 16 ≤ i) (hi : i < 64)
    (h : ∀ (k : Nat) (hk : k < i), v[k] = w[k]) : scheduleWord v i lo hi = scheduleWord w i lo hi := by
  rw [scheduleWord, scheduleWord, h (i - 16) (by omega), h (i - 15) (by omega), h (i - 7) (by omega), h (i - 2) (by omega)]

theorem scheduleUpTo_succ (c : Vector Byte 64) {n : Nat} (hn : 16 + n < 64) : scheduleUpTo c (n + 1) =
    (scheduleUpTo c n).set (16 + n) (scheduleWord (scheduleUpTo c n) (16 + n) (Nat.le_add_right 16 n) hn) hn := by
  rw [scheduleUpTo, dif_pos hn]

/-- A word once derived stays: later derivations write above it. -/
theorem scheduleUpTo_getElem_of_le (c : Vector Byte 64) {i m n : Nat} (hi : i < 64) (him : i < 16 + m) (hmn : m ≤ n)
    (hn : n ≤ 48) : (scheduleUpTo c n)[i] = (scheduleUpTo c m)[i] := by
  induction n, hmn using Nat.le_induction with
  | base => rfl
  | succ n hmn ih => rw [scheduleUpTo_succ c (by omega), Vector.getElem_set_ne _ _ (by omega), ih (by omega)]

theorem schedule_getElem_eq_scheduleUpTo (c : Vector Byte 64) {i n : Nat} (hi : i < 64) (hin : i < 16 + n) (hn : n ≤ 48) :
    (schedule c)[i] = (scheduleUpTo c n)[i] :=
  scheduleUpTo_getElem_of_le c hi hin hn (le_refl 48)

theorem schedule_getElem_of_lt (c : Vector Byte 64) {i : Nat} (hi : i < 16) :
    (schedule c)[i] = memRead c (4 * i) (by omega) := by
  rw [schedule_getElem_eq_scheduleUpTo c (n := 0) (by omega) hi (by decide)]
  simp [scheduleUpTo, firstWords, hi]

theorem schedule_getElem_of_ge (c : Vector Byte 64) {i : Nat} (lo : 16 ≤ i) (hi : i < 64) :
    (schedule c)[i] = scheduleWord (schedule c) i lo hi := by
  obtain ⟨n, rfl⟩ := Nat.exists_eq_add_of_le lo
  calc (schedule c)[16 + n]
    _ = (scheduleUpTo c (n + 1))[16 + n] := schedule_getElem_eq_scheduleUpTo c hi (by omega) (by omega)
    _ = scheduleWord (scheduleUpTo c n) (16 + n) lo hi := by rw [scheduleUpTo_succ c hi, Vector.getElem_set_self]
    _ = scheduleWord (schedule c) (16 + n) lo hi := scheduleWord_congr lo hi fun k hk =>
      (schedule_getElem_eq_scheduleUpTo c (by omega) hk (by omega)).symm

/-- Settles O19: the first sixteen words are reads of the chunk, and each later one is the recurrence over the schedule itself. -/
theorem scheduleMeetsItsRecurrence : Obligations.ScheduleMeetsItsRecurrence := by
  unfold Obligations.ScheduleMeetsItsRecurrence
  intro blk
  constructor
  · intro i hi
    rw [schedule_getElem_of_lt blk (Nat.lt_succ_of_le hi), memRead_toNat]
  · intro i lo hi
    rw [← scheduleWord_eq_sum (schedule blk) lo hi]
    exact schedule_getElem_of_ge blk lo hi

/-! The steps that store one word. -/

/-- T has a bit to spare: counting from an index of W does not wrap. -/
theorem count_toNat {i : BitVec 7} (hi : i.toNat < 64) : (i + 1).toNat = i.toNat + 1 := by
  bv_omega

/-- Settles O17: the word stored is the read of BLK at 4T, and T + 1 = 16 says T = 15. -/
theorem loadwCopiesABigEndianWord : Obligations.LoadwCopiesABigEndianWord := by
  unfold Obligations.LoadwCopiesABigEndianWord
  intro s ht
  have hW : s.t.toNat < 64 := Nat.lt_of_le_of_lt ht (by decide)
  have hlast : s.t + 1 = 16 ↔ s.t.toNat = 15 := by bv_omega
  refine ⟨_, execLoadw_of_lt (Nat.lt_succ_of_le ht), ?_, ?_, count_toNat hW, if_congr hlast rfl rfl,
    rfl, rfl, rfl, rfl, rfl, rfl, rfl, rfl, ⟨rfl, rfl, rfl, rfl⟩, rfl⟩
  · intro i hi hne
    exact Vector.getElem_set_ne hW hi hne.symm
  · rintro _ - rfl
    rw [← memRead_toNat s.blk]
    simp

/-- Settles O18: the word stored is the recurrence over W as it was, and T + 1 = 64 says T = 63. -/
theorem expandDerivesAWord : Obligations.ExpandDerivesAWord := by
  unfold Obligations.ExpandDerivesAWord
  intro s lo ht
  have hW : s.t.toNat < 64 := Nat.lt_succ_of_le ht
  have hlast : s.t + 1 = 64 ↔ s.t.toNat = 63 := by bv_omega
  refine ⟨_, execExpand_of_range lo hW, ?_, ?_, count_toNat hW, if_congr hlast rfl rfl,
    rfl, rfl, rfl, rfl, rfl, rfl, rfl, rfl, ⟨rfl, rfl, rfl, rfl⟩, rfl⟩
  · intro i hi hne
    exact Vector.getElem_set_ne hW hi hne.symm
  · rintro _ _ _ rfl
    rw [← scheduleWord_eq_sum s.w lo hW]
    simp

end Sys2Proof.Machine
end

section
/-! SUPPORT. The compression engine: the wires T1 and T2 as sums of words and the chain a round leaves (R202), and the statements
about LOADREGS (R200) and ROUND (R201). -/

namespace Sys2Proof.Machine

/-! One round as a combinational function. -/

theorem roundT1_eq_sum (r : Vector Word 8) (k w : Word) :
    roundT1 r k w = r[7] + bsig1 r[4] + ch r[4] r[5] r[6] + k + w := by
  simp [roundT1, BitVec.add_assoc]

theorem roundT2_eq_sum (r : Vector Word 8) : roundT2 r = bsig0 r[0] + maj r[0] r[1] r[2] := by
  simp [roundT2]

/-- Only the first and the fifth register are computed; the other six take their neighbour's old value. -/
theorem mixRound_eq_shift (r : Vector Word 8) (k w : Word) : mixRound r k w =
    #v[roundT1 r k w + roundT2 r, r[0], r[1], r[2], r[3] + roundT1 r k w, r[4], r[5], r[6]] := by
  simp [mixRound]

/-! The two micro-operations. -/

/-- Settles O21: LOADREGS is one whole-array write from H, so each clause is a field of the state it answers. -/
theorem loadregsCopiesTheHashState : Obligations.LoadregsCopiesTheHashState := by
  unfold Obligations.LoadregsCopiesTheHashState
  intro s
  exact ⟨(((s.setA s.h).setT 0).setPhase Phase.round).noResponse, rfl, fun _ _ => rfl, rfl, rfl,
    rfl, rfl, rfl, rfl, rfl, rfl, rfl, rfl, ⟨rfl, rfl, rfl, rfl⟩, rfl⟩

/-- Settles O22: the wires are those of the registers before the round, and T + 1 = 64 says T = 63. -/
theorem roundMixesTheWorkingRegisters : Obligations.RoundMixesTheWorkingRegisters := by
  unfold Obligations.RoundMixesTheWorkingRegisters
  intro s ht
  have hW : s.t.toNat < 64 := Nat.lt_succ_of_le ht
  have hlast : s.t + 1 = 64 ↔ s.t.toNat = 63 := by bv_omega
  have hnext := execRound_of_lt hW
  rw [mixRound_eq_shift] at hnext
  exact ⟨roundT1 s.a K[s.t.toNat] s.w[s.t.toNat], roundT2 s.a, _, hnext, roundT1_eq_sum .., roundT2_eq_sum ..,
    rfl, rfl, rfl, rfl, rfl, rfl, rfl, rfl, count_toNat hW, if_congr hlast rfl rfl,
    rfl, rfl, rfl, rfl, rfl, rfl, rfl, rfl, ⟨rfl, rfl, rfl, rfl⟩, rfl⟩

end Sys2Proof.Machine
end

section
/-! SUPPORT. The state accumulator and the digest serializer: the accumulation as addition of natural numbers (R221), the phase
after a chunk as a chain of conditions (R220), the serialisation by place value (R224), and the statements about ACCUM and
SERIAL. -/

namespace Sys2Proof.Machine

/-! ACCUM. -/

theorem accumulate_getElem (s r : Vector Word 8) {k : Nat} (hk : k < 8) : (accumulate s r)[k] = s[k] + r[k] := by
  simp [accumulate]

theorem phaseAfterChunk_eq_ite (p : Padp) : phaseAfterChunk p =
    if p = .pnone then Phase.opened else if p = .pl then Phase.serial else Phase.pad := by
  cases p <;> rfl

/-- Settles O24: `accumulate` is addition word by word, and `phaseAfterChunk` is R220's chain; the other clauses are fields
that ACCUM's writes leave alone or set. -/
theorem accumFoldsTheRegistersIntoH : Obligations.AccumFoldsTheRegistersIntoH := by
  unfold Obligations.AccumFoldsTheRegistersIntoH
  intro s
  refine ⟨(((s.setH (accumulate s.h s.a)).setFill 0).setPhase (phaseAfterChunk s.padp)).noResponse, rfl, ?_, ?_⟩
  · intro k hk
    simp only [State.noResponse_h, State.setPhase_h, State.setFill_h, State.setH_h]
    rw [accumulate_getElem s.h s.a hk, BitVec.toNat_add]
  · simp [SameHost, phaseAfterChunk_eq_ite]

/-! SERIAL. -/

theorem wordByte_toNat (x : Word) (j : Nat) : (wordByte x j).toNat = x.toNat / 2 ^ (24 - 8 * j) % 256 := by
  rw [wordByte, BitVec.extractLsb'_toNat, Nat.shiftRight_eq_div_pow]

/-- Word k fills the four bytes from 4k on. -/
theorem serialize_getElem (s : Vector Word 8) {k j : Nat} (hk : k < 8) (hj : j < 4) :
    (serialize s)[4 * k + j] = wordByte s[k] j := by
  have hword : (4 * k + j) / 4 = k := by omega
  have hbyte : (4 * k + j) % 4 = j := by omega
  simp [serialize, hword, hbyte]

/-- Settles O26: byte 4k + j is byte j of word k, a quotient of that word; the other clauses are fields that SERIAL's
writes leave alone or set. -/
theorem serialWritesTheDigestBigEndian : Obligations.SerialWritesTheDigestBigEndian := by
  unfold Obligations.SerialWritesTheDigestBigEndian
  intro s
  refine ⟨((s.setDigest (serialize s.h)).setPhase Phase.done).noResponse, rfl, ?_, ?_⟩
  · intro k j hk hj
    simp only [State.noResponse_digest, State.setPhase_digest, State.setDigest_digest]
    rw [serialize_getElem s.h hk hj, wordByte_toNat]
  · simp [SameHost]

end Sys2Proof.Machine
end

section
/-! SUPPORT. Runs that end in a named condition: one run after the other, a run as long as an induction, and one step of a busy
block as a run of length one. -/

namespace Sys2Proof.Machine

/-- n steps from s go on, and end in a state of `P`. -/
def RunsTo (n : Nat) (P : State → Prop) (s : State) : Prop := ∃ t, runFor n s = .next t ∧ P t

variable {P Q : State → Prop} {s : State}

theorem RunsTo.zero (h : P s) : RunsTo 0 P s := ⟨s, runFor_zero s, h⟩

theorem RunsTo.trans {m n : Nat} (h : RunsTo m P s) (next : ∀ t, P t → RunsTo n Q t) : RunsTo (m + n) Q s := by
  obtain ⟨t, run, ht⟩ := h
  obtain ⟨u, run', hu⟩ := next t ht
  exact ⟨u, (runFor_add run).trans run', hu⟩

theorem RunsTo.mono {n : Nat} (h : RunsTo n P s) (himp : ∀ t, P t → Q t) : RunsTo n Q s :=
  h.trans fun t ht => RunsTo.zero (himp t ht)

/-- A family of conditions in which each step leads from one to the next. -/
theorem RunsTo.iterate {I : Nat → State → Prop} {n : Nat} (hstep : ∀ k s, k < n → I k s → RunsTo 1 (I (k + 1)) s)
    (h : I 0 s) : RunsTo n (I n) s := by
  induction n with
  | zero => exact RunsTo.zero h
  | succ n ih => exact (ih fun k s hk => hstep k s (Nat.lt_succ_of_lt hk)).trans fun t => hstep n t (Nat.lt_succ_self n)

/-- A busy block's step, while no reset comes, is its micro-operation and the host's part of the step. -/
theorem RunsTo.micro {i : Instr} {u : State} (hn : NoReset s) (hp : decodePhase s.phase = .instr i)
    (e : exec i s = .next u) (hs : u.script = s.script)
    (h : NoReset (u.driveHost s.heldAfter) → P (u.driveHost s.heldAfter)) : RunsTo 1 P s := by
  obtain ⟨hstep, hn'⟩ := step_micro hn hp e hs
  exact ⟨_, runFor_succ hstep, h hn'⟩

/-- A meaning that leaves the host alone raises no reset. -/
theorem NoReset.of_sameHost {t : State} (hn : NoReset s) (h : SameHost s t) : NoReset t := by
  obtain ⟨hrst, -, -, hscript⟩ := h
  exact ⟨hrst.trans hn.1, hscript ▸ hn.2⟩

end Sys2Proof.Machine
end

section
/-! SUPPORT. The length of a chunk period (R276): LOADW, EXPAND and ROUND count T through their range, LOADREGS and ACCUM are one
step each, and PADP alone decides the phase after the 130 steps. -/

namespace Sys2Proof.Machine

/-- Between two steps of a chunk period: PHASE and T, and the value PADP keeps throughout; no reset comes. -/
structure InPeriod (c : Padp) (p : BitVec 4) (k : Nat) (s : State) : Prop where
  noReset : NoReset s
  phase : s.phase = p
  index : s.t.toNat = k
  padp : s.padp = c

/-- A micro-operation that counts T from `lo` to `hi` in phase `p` and then enters phase `q`. -/
def CountsThrough (i : Instr) (p q : BitVec 4) (lo hi : Nat) : Prop :=
  ∀ s : State, lo ≤ s.t.toNat → s.t.toNat < hi → ∃ u, exec i s = .next u ∧ u.t.toNat = s.t.toNat + 1 ∧
    u.phase = (if s.t.toNat + 1 = hi then q else p) ∧ u.padp = s.padp ∧ u.script = s.script

theorem loadw_countsThrough : CountsThrough .loadw Phase.loadw Phase.expand 0 16 := by
  intro s _ hi
  have hlast : s.t + 1 = 16 ↔ s.t.toNat + 1 = 16 := by bv_omega
  exact ⟨_, execLoadw_of_lt hi, count_toNat (by omega), if_congr hlast rfl rfl, rfl, rfl⟩

theorem expand_countsThrough : CountsThrough .expand Phase.expand Phase.loadregs 16 64 := by
  intro s lo hi
  have hlast : s.t + 1 = 64 ↔ s.t.toNat + 1 = 64 := by bv_omega
  exact ⟨_, execExpand_of_range lo hi, count_toNat hi, if_congr hlast rfl rfl, rfl, rfl⟩

theorem round_countsThrough : CountsThrough .round Phase.round Phase.accum 0 64 := by
  intro s _ hi
  have hlast : s.t + 1 = 64 ↔ s.t.toNat + 1 = 64 := by bv_omega
  exact ⟨_, execRound_of_lt hi, count_toNat hi, if_congr hlast rfl rfl, rfl, rfl⟩

variable {c : Padp} {s : State}

/-- A counted phase takes one step for each index of its range. -/
theorem InPeriod.counted {i : Instr} {p q : BitVec 4} {lo n : Nat} (hpos : 0 < n) (hp : decodePhase p = .instr i)
    (hi : CountsThrough i p q lo (lo + n)) (h : InPeriod c p lo s) : RunsTo n (InPeriod c q (lo + n)) s := by
  have start : InPeriod c (if 0 = n then q else p) (lo + 0) s := by rwa [if_neg hpos.ne]
  have counts : ∀ k s, k < n → InPeriod c (if k = n then q else p) (lo + k) s →
      RunsTo 1 (InPeriod c (if k + 1 = n then q else p) (lo + (k + 1))) s := by
    rintro k s hk ⟨hn, hphase, hindex, hpadp⟩
    rw [if_neg hk.ne] at hphase
    obtain ⟨u, e, hindex', hphase', hpadp', hscript⟩ := hi s (by omega) (by omega)
    have hlast : s.t.toNat + 1 = lo + n ↔ k + 1 = n := by omega
    refine RunsTo.micro hn (hphase ▸ hp) e hscript fun hn' => ⟨hn', ?_, ?_, ?_⟩
    · simp only [State.driveHost_phase, hphase', hlast]
    · rw [State.driveHost_t, hindex', hindex, Nat.add_assoc]
    · rw [State.driveHost_padp, hpadp', hpadp]
  simpa using RunsTo.iterate (I := fun k => InPeriod c (if k = n then q else p) (lo + k)) counts start

theorem InPeriod.loadregs {k : Nat} (h : InPeriod c Phase.loadregs k s) : RunsTo 1 (InPeriod c Phase.round 0) s := by
  obtain ⟨hn, hphase, -, hpadp⟩ := h
  refine RunsTo.micro (i := .loadregs) hn (by rw [hphase]; decide) rfl rfl fun hn' => ⟨hn', ?_, ?_, ?_⟩ <;> simp [hpadp]

/-- After ACCUM: the phase that PADP chooses, an empty chunk, and no reset to come. -/
structure PeriodEnd (c : Padp) (s : State) : Prop where
  noReset : NoReset s
  phase : s.phase = phaseAfterChunk c
  fill : s.fill = 0
  padp : s.padp = c

theorem InPeriod.accum {k : Nat} (h : InPeriod c Phase.accum k s) : RunsTo 1 (PeriodEnd c) s := by
  obtain ⟨hn, hphase, -, hpadp⟩ := h
  refine RunsTo.micro (i := .accum) hn (by rw [hphase]; decide) rfl rfl fun hn' => ⟨hn', ?_, ?_, ?_⟩ <;> simp [hpadp]

/-- R276 (1): a chunk period is 16 LOADW, 48 EXPAND, one LOADREGS, 64 ROUND and one ACCUM. -/
theorem InPeriod.period (h : InPeriod c Phase.loadw 0 s) : RunsTo 130 (PeriodEnd c) s :=
  have loaded : RunsTo 16 (InPeriod c Phase.expand 16) s := h.counted (by decide) (by decide) loadw_countsThrough
  have expanded : RunsTo (16 + 48) (InPeriod c Phase.loadregs 64) s :=
    loaded.trans fun _ ht => ht.counted (by decide) (by decide) expand_countsThrough
  have started : RunsTo (16 + 48 + 1) (InPeriod c Phase.round 0) s := expanded.trans fun _ => InPeriod.loadregs
  have mixed : RunsTo (16 + 48 + 1 + 64) (InPeriod c Phase.accum 64) s :=
    started.trans fun _ ht => ht.counted (by decide) (by decide) round_countsThrough
  mixed.trans fun _ => InPeriod.accum

end Sys2Proof.Machine
end

section
/-! SUPPORT. The final period (R244, R276): the PAD steps that complete a chunk, and what PADP is when they have. -/

namespace Sys2Proof.Machine

/-- Between two steps of the padder: the bytes in the chunk so far, and a condition `J` on PADP and that number; no reset
comes. -/
structure Padding (J : Padp → Nat → Prop) (n : Nat) (s : State) : Prop where
  noReset : NoReset s
  phase : s.phase = Phase.pad
  fill : s.fill.toNat = n
  progress : J s.padp n

/-- A condition on PADP and FILL that the selection of R163 keeps, byte by byte. -/
def PadKeeps (J : Padp → Nat → Prop) : Prop :=
  ∀ (padp : Padp) (fill : BitVec 7) (len : BitVec 61), fill.toNat ≤ 63 → J padp fill.toNat →
    J (padSelect padp fill len).2 (fill.toNat + 1)

/-- PADP in a chunk that will hold the length field: the field begins at byte 56, when the 0x80 byte has been written. -/
def LengthDue (padp : Padp) (n : Nat) : Prop :=
  (n ≤ 55 → padp = .p80 ∨ padp = .pz) ∧ (n = 56 → padp = .pz) ∧ (57 ≤ n → padp = .pl)

/-- PADP in a chunk whose 0x80 byte comes too late for the length field to follow in it. -/
def LengthDeferred (padp : Padp) (n : Nat) : Prop := 56 ≤ n ∧ (n ≤ 63 ∧ padp = .p80 ∨ 57 ≤ n ∧ padp = .pz)

theorem padSelect_p80_padp (fill : BitVec 7) (len : BitVec 61) : (padSelect .p80 fill len).2 = .pz := by
  simp [padSelect]

theorem padSelect_pz_padp (fill : BitVec 7) (len : BitVec 61) :
    (padSelect .pz fill len).2 = if fill.toNat = 56 then .pl else .pz := by
  have hfill : fill = 56 ↔ fill.toNat = 56 := by bv_omega
  rw [if_congr hfill.symm rfl rfl]
  by_cases h : fill = 56#7 <;> simp [padSelect, h]

theorem padSelect_pl_padp (fill : BitVec 7) (len : BitVec 61) : (padSelect .pl fill len).2 = .pl := by
  simp [padSelect]

theorem lengthDue_kept : PadKeeps LengthDue := by
  rintro padp fill len hf ⟨hlow, hmid, hhigh⟩
  rcases Nat.lt_trichotomy fill.toNat 56 with hlt | heq | hgt
  · have hnext : (padSelect padp fill len).2 = .pz := by
      rcases hlow (by omega) with rfl | rfl
      · exact padSelect_p80_padp fill len
      · rw [padSelect_pz_padp, if_neg hlt.ne]
    exact ⟨fun _ => .inr hnext, fun _ => hnext, fun h => by omega⟩
  · have hnext : (padSelect padp fill len).2 = .pl := by rw [hmid heq, padSelect_pz_padp, if_pos heq]
    exact ⟨fun h => by omega, fun h => by omega, fun _ => hnext⟩
  · have hnext : (padSelect padp fill len).2 = .pl := by rw [hhigh hgt, padSelect_pl_padp]
    exact ⟨fun h => by omega, fun h => by omega, fun _ => hnext⟩

theorem lengthDeferred_kept : PadKeeps LengthDeferred := by
  rintro padp fill len hf ⟨hge, hpadp⟩
  have hnext : (padSelect padp fill len).2 = .pz := by
    rcases hpadp with ⟨-, rfl⟩ | ⟨hgt, rfl⟩
    · exact padSelect_p80_padp fill len
    · rw [padSelect_pz_padp, if_neg (Nat.ne_of_gt hgt)]
  exact ⟨by omega, .inr ⟨by omega, hnext⟩⟩

variable {J : Padp → Nat → Prop} {s : State}

/-- PAD goes on by writing its byte: FILL counts it, and the 64th enters LOADW (R163). -/
theorem execPad_of_le (hf : s.fill.toNat ≤ 63) : ∃ u, exec .pad s = .next u ∧ u.fill.toNat = s.fill.toNat + 1 ∧
    (if s.fill.toNat = 63 then u.phase = Phase.loadw ∧ u.t = 0 else u.phase = Phase.pad ∧ u.t = s.t) ∧
    u.padp = (padSelect s.padp s.fill s.len).2 ∧ u.script = s.script := by
  obtain ⟨u, e, -, hfill, hphase, -, -, -, -, -, hpadp, -, ⟨-, -, -, hscript⟩, -⟩ :=
    State.putByte_writes (s := s.noResponse.setPadp (padSelect s.padp s.fill s.len).2) Phase.pad
      (padSelect s.padp s.fill s.len).1 hf
  exact ⟨u, e, hfill, hphase, hpadp, hscript⟩

theorem Padding.step (hJ : PadKeeps J) {n : Nat} (hn : n < 63) (h : Padding J n s) : RunsTo 1 (Padding J (n + 1)) s := by
  obtain ⟨hreset, hphase, rfl, hprog⟩ := h
  obtain ⟨u, e, hfill, hphase', hpadp, hscript⟩ := execPad_of_le hn.le
  rw [if_neg hn.ne] at hphase'
  refine RunsTo.micro hreset (by rw [hphase]; decide) e hscript fun hreset' => ⟨hreset', ?_, ?_, ?_⟩
  · rw [State.driveHost_phase, hphase'.1]
  · rw [State.driveHost_fill, hfill]
  · rw [State.driveHost_padp, hpadp]
    exact hJ _ _ _ hn.le hprog

theorem Padding.lastStep (hJ : PadKeeps J) (h : Padding J 63 s) :
    RunsTo 1 (fun t => J t.padp 64 ∧ InPeriod t.padp Phase.loadw 0 t) s := by
  obtain ⟨hreset, hphase, hfill, hprog⟩ := h
  obtain ⟨u, e, -, hphase', hpadp, hscript⟩ := execPad_of_le hfill.le
  rw [if_pos hfill] at hphase'
  refine RunsTo.micro hreset (by rw [hphase]; decide) e hscript fun hreset' => ⟨?_, hreset', ?_, ?_, rfl⟩
  · have hnext := hJ s.padp s.fill s.len hfill.le (hfill ▸ hprog)
    rw [State.driveHost_padp, hpadp]
    rwa [hfill] at hnext
  · rw [State.driveHost_phase, hphase'.1]
  · rw [State.driveHost_t, hphase'.2]
    rfl

/-- The padder completes a chunk in as many steps as bytes are missing. -/
theorem Padding.completes (hJ : PadKeeps J) {n : Nat} (hn : n ≤ 63) (h : Padding J n s) :
    RunsTo (64 - n) (fun t => J t.padp 64 ∧ InPeriod t.padp Phase.loadw 0 t) s := by
  have filled : RunsTo (63 - n) (Padding J (n + (63 - n))) s :=
    RunsTo.iterate (I := fun k => Padding J (n + k)) (fun k t hk => Padding.step hJ (by omega)) h
  rw [Nat.add_sub_cancel' hn] at filled
  rw [show 64 - n = (63 - n) + 1 by omega]
  exact filled.trans fun _ => Padding.lastStep hJ

theorem PeriodEnd.serial (h : PeriodEnd .pl s) : RunsTo 1 (fun t => t.phase = Phase.done) s := by
  obtain ⟨hreset, hphase, -, -⟩ := h
  exact RunsTo.micro (i := .serial) hreset (by rw [hphase]; decide) rfl (by simp) fun _ => by simp

/-- A chunk that ends with the length field is the last: after its period SERIAL enters DONE. -/
theorem Padding.due_runsTo_done {n : Nat} (hn : n ≤ 63) (h : Padding LengthDue n s) :
    RunsTo (64 - n + 130 + 1) (fun t => t.phase = Phase.done) s := by
  have processed : RunsTo (64 - n + 130) (PeriodEnd .pl) s := by
    refine (h.completes lengthDue_kept hn).trans ?_
    rintro t ⟨⟨-, -, hpl⟩, ht⟩
    rw [hpl (by decide)] at ht
    exact ht.period
  exact processed.trans fun _ => PeriodEnd.serial

/-- A chunk without room for the length field is followed by one more, all of it padding. -/
theorem Padding.deferred_runsTo_due {n : Nat} (hn : n ≤ 63) (h : Padding LengthDeferred n s) :
    RunsTo (64 - n + 130) (Padding LengthDue 0) s := by
  refine (h.completes lengthDeferred_kept hn).trans ?_
  rintro t ⟨⟨-, hpadp⟩, ht⟩
  have hpz : t.padp = .pz := by simpa using hpadp
  rw [hpz] at ht
  refine ht.period.mono ?_
  rintro u ⟨hreset, hphase, hfill, hpadp'⟩
  exact ⟨hreset, hphase, by rw [hfill]; rfl, by simp [LengthDue, hpadp']⟩

/-- R161: where the length field fits, the padder adds what is missing of the chunk. -/
theorem padlen_of_mod_le {n : Nat} (h : n % 64 ≤ 55) : padlen n = 64 - n % 64 := by
  unfold padlen zeros
  omega

/-- R161: where it does not fit, the padder adds one whole chunk more. -/
theorem padlen_of_mod_gt {n : Nat} (h : 55 < n % 64) : padlen n = 64 - n % 64 + 64 := by
  unfold padlen zeros
  omega

/-- R276: from the state FINAL leaves, the final period is padlen PAD steps, one or two chunk periods, and SERIAL. -/
theorem finalPeriod_runsTo_done {n : Nat} (hn : NoReset s) (hphase : s.phase = Phase.pad) (hpadp : s.padp = .p80)
    (hfill : s.fill.toNat = n % 64) :
    RunsTo (padlen n + (if n % 64 ≤ 55 then 130 else 260) + 1) (fun t => t.phase = Phase.done) s := by
  have hlt : n % 64 < 64 := Nat.mod_lt n (by decide)
  split_ifs with hfits
  · have hdue : Padding LengthDue (n % 64) s := ⟨hn, hphase, hfill, by simp [LengthDue, hpadp]; omega⟩
    rw [padlen_of_mod_le hfits]
    exact hdue.due_runsTo_done (Nat.le_of_lt_succ hlt)
  · have hdeferred : Padding LengthDeferred (n % 64) s := ⟨hn, hphase, hfill, by simp [LengthDeferred, hpadp]; omega⟩
    rw [padlen_of_mod_gt (Nat.lt_of_not_le hfits),
      show 64 - n % 64 + 64 + 260 + 1 = (64 - n % 64 + 130) + (64 - 0 + 130 + 1) by omega]
    exact (hdeferred.deferred_runsTo_due (Nat.le_of_lt_succ hlt)).trans fun _ ht => ht.due_runsTo_done (by decide)

end Sys2Proof.Machine
end

section
/-! SUPPORT. The words of the host commands as numbers, and which words with an argument they leave illegal (R91, R95, R96). -/

namespace Sys2Proof

/-- A command word by place value: the operation code times 0x1000, and the argument. -/
theorem cmdWord_eq_ofNat (op : BitVec 4) {n : Nat} (hn : n < 256) :
    cmdWord op (BitVec.ofNat 8 n) = BitVec.ofNat 16 (4096 * op.toNat + n) := by
  have := op.isLt
  apply BitVec.eq_of_toNat_eq
  rw [toNat_cmdWord, BitVec.toNat_ofNat, BitVec.toNat_ofNat]
  omega

theorem cmdWord_absorb (b : Byte) : cmdWord 0x2 b = 0x2000 + b.zeroExtend 16 := by
  apply BitVec.eq_of_toNat_eq
  have := b.isLt
  rw [toNat_cmdWord, BitVec.toNat_add, BitVec.zeroExtend, BitVec.toNat_setWidth,
    show BitVec.toNat (0x2 : BitVec 4) = 2 from rfl, show BitVec.toNat (0x2000 : BitVec 16) = 0x2000 from rfl]
  omega

theorem decodeCmd_nop_illegal {arg : Byte} (harg : arg ≠ 0) : decodeCmd (cmdWord 0x0 arg) = .illegal .argNotZero := by
  simp only [decodeCmd, decodeBare, rsvField_cmdWord, opField_cmdWord, argField_cmdWord]
  simpa using harg

theorem decodeCmd_rdd_illegal {arg : Byte} (harg : ¬ arg < 32) :
    decodeCmd (cmdWord 0x4 arg) = .illegal .indexOutOfRange := by
  simp only [decodeCmd, rsvField_cmdWord, opField_cmdWord, argField_cmdWord, if_neg harg]
  simp

end Sys2Proof
end

section
/-! SUPPORT. The host commands (R241 to R245): each command's outcome phase by phase, when the port is read at all (R247), and
the statements about them. -/

namespace Sys2Proof.Machine

variable {s : State}

/-! A busy block reads no word. -/

theorem not_hostPhase_of_busy (h : s.busy = true) : ¬ hostPhase s.phase = true := by
  obtain ⟨i, hi⟩ := busy_iff_decodePhase.1 h
  simp [← decodePhase_host_iff, hi]

theorem select_ne_command_of_busy (h : s.busy = true) (i : Instr) : select s ≠ .command i :=
  fun hs => not_hostPhase_of_busy h (select_command_iff.1 hs).2.1

theorem select_ne_illegalWord_of_busy (h : s.busy = true) : select s ≠ .illegalWord :=
  fun hs => not_hostPhase_of_busy h (select_illegalWord_iff.1 hs).2.1

/-! A command in a phase that does not permit it raises PROTOCOL and does nothing else (R303). -/

theorem raisesOnly_of_eq {e : Err} {o : Outcome} (h : o = .next (s.raiseErr e)) : RaisesOnly e s o :=
  h ▸ raisesOnly_raiseErr e s

theorem absorb_raises_protocol (b : Byte) (h : s.phase ≠ Phase.opened) : RaisesOnly .protocol s (exec (.absorb b) s) :=
  raisesOnly_of_eq (if_pos h)

theorem final_raises_protocol (h : s.phase ≠ Phase.opened) : RaisesOnly .protocol s (exec .final s) :=
  raisesOnly_of_eq (if_pos h)

theorem rdd_raises_protocol (arg : Byte) (h : s.phase ≠ Phase.done) : RaisesOnly .protocol s (exec (.rdd arg) s) :=
  raisesOnly_of_eq (if_pos h)

/-! NOP and INIT, in every phase. -/

theorem nop_frame (s : State) : ∃ t, exec .nop s = .next t ∧ SameArrays s t ∧ SameControl s t ∧ SameHost s t ∧
    t.rspValid = false :=
  ⟨s.noResponse, rfl, by simp [SameArrays, SameControl, SameHost]⟩

/-- Settles O6: NOP is a step without a response, and an argument other than 0 fails the decoder's check. -/
theorem nopChangesNothing : Obligations.NopChangesNothing := by
  unfold Obligations.NopChangesNothing
  refine ⟨nop_frame, by decide, fun n hlo hhi => ?_⟩
  have hword : BitVec.ofNat 16 n = cmdWord 0x0 (BitVec.ofNat 8 n) := by
    rw [cmdWord_eq_ofNat 0x0 (by omega)]
    simp
  have harg : BitVec.ofNat 8 n ≠ 0 := by bv_omega
  rw [hword, decodeCmd_nop_illegal harg]

/-- Settles O7: INIT's writes are `openMessage`, which leaves PHASE = OPEN, where RDD is not permitted. -/
theorem initOpensAMessage : Obligations.InitOpensAMessage := by
  unfold Obligations.InitOpensAMessage
  refine ⟨fun s => ?_, fun s hbusy => select_ne_command_of_busy hbusy .init, by decide, ?_⟩
  · have hnotDone : s.openMessage.noResponse.phase ≠ Phase.done := by simp
    exact ⟨s.openMessage.noResponse, rfl, rfl, rfl, rfl, rfl, rfl, rfl, rfl, rfl, rfl, rfl, rfl, ⟨rfl, rfl, rfl, rfl⟩, rfl,
      fun arg => rdd_raises_protocol arg hnotDone⟩
  · exact ⟨State.reset.openMessage.noResponse, rfl, by decide⟩

/-! ABSORB in OPEN. -/

theorem len_eq_allOnes_iff {len : BitVec 61} : len = BitVec.allOnes 61 ↔ len.toNat = 2 ^ 61 - 1 := by
  rw [← BitVec.toNat_inj, BitVec.toNat_allOnes]

theorem absorb_raises_lenovf (b : Byte) (hp : s.phase = Phase.opened) (hlen : s.len.toNat = 2 ^ 61 - 1) :
    RaisesOnly .lenovf s (exec (.absorb b) s) :=
  raisesOnly_of_eq ((if_neg (not_not_intro hp)).trans (if_pos (len_eq_allOnes_iff.2 hlen)))

/-- Below the limit ABSORB is the byte write, from the state with LEN counted. -/
theorem absorb_eq_putByte (b : Byte) (hp : s.phase = Phase.opened) (hlen : s.len.toNat ≠ 2 ^ 61 - 1) :
    exec (.absorb b) s = (s.noResponse.setLen (s.len + 1)).putByte Phase.opened b :=
  (if_neg (not_not_intro hp)).trans (if_neg (mt len_eq_allOnes_iff.1 hlen))

/-- Settles O8: below the limit ABSORB is the byte write, and the 64th byte begins a chunk period whose PADP is PNONE. -/
theorem absorbAppendsAByte : Obligations.AbsorbAppendsAByte := by
  unfold Obligations.AbsorbAppendsAByte
  refine ⟨fun b s => ⟨absorb_raises_protocol b, absorb_raises_lenovf b⟩, fun b s hp hlen hf => ?_,
    fun b => congrArg Encoding.cmd16 (cmdWord_absorb b)⟩
  obtain ⟨t, e, hblk, hfill, hphase, hh, ha, hw, hdigest, hlen', hpadp, herr, hhost, hrsp⟩ :=
    State.putByte_writes (s := s.noResponse.setLen (s.len + 1)) Phase.opened b hf
  have hcount : (s.len + 1).toNat = s.len.toNat + 1 := by bv_omega
  rw [← absorb_eq_putByte b hp hlen] at e
  refine ⟨t, e, hblk, (congrArg BitVec.toNat hlen').trans hcount, hfill, hphase, hh, ha, hw, hdigest, hpadp, herr, hhost,
    hrsp, fun hlast hnone hreset => ?_⟩
  rw [State.setLen_fill, State.noResponse_fill, if_pos hlast] at hphase
  obtain ⟨hloadw, ht⟩ := hphase
  have hperiod : InPeriod .pnone Phase.loadw 0 t :=
    ⟨hreset.of_sameHost hhost, hloadw, congrArg BitVec.toNat ht, hpadp.trans hnone⟩
  obtain ⟨u, run, -, hopen, hempty, -⟩ := hperiod.period
  exact ⟨u, run, hopen, hempty⟩

/-! FINAL in OPEN, RDD in DONE. -/

theorem final_of_opened (hp : s.phase = Phase.opened) :
    exec .final s = .next ((s.setPadp .p80).setPhase Phase.pad).noResponse :=
  if_neg (not_not_intro hp)

theorem rdd_of_done (arg : Byte) (hp : s.phase = Phase.done) :
    exec (.rdd arg) s = .next (s.respond (s.digest[(rddIndex arg).toNat]'(rddIndex arg).isLt)) :=
  if_neg (not_not_intro hp)

/-- Settles O10: FINAL writes PADP and PHASE alone, and leaves the padder at the first byte of the final period. -/
theorem finalStartsTheFinalPeriod : Obligations.FinalStartsTheFinalPeriod := by
  unfold Obligations.FinalStartsTheFinalPeriod
  refine ⟨fun s hp => ?_, fun s => final_raises_protocol, by decide⟩
  have hhost : SameHost s ((s.setPadp .p80).setPhase Phase.pad).noResponse := ⟨rfl, rfl, rfl, rfl⟩
  exact ⟨_, final_of_opened hp, rfl, rfl, ⟨rfl, rfl, rfl, rfl, rfl⟩, rfl, rfl, rfl, rfl, hhost, rfl,
    fun hreset hfill => finalPeriod_runsTo_done (hreset.of_sameHost hhost) rfl rfl hfill⟩

theorem rddIndex_ofNat {i : Nat} (hi : i < 32) : (rddIndex (BitVec.ofNat 8 i)).toNat = i := by
  rw [rddIndex, BitVec.extractLsb'_toNat, BitVec.toNat_ofNat, Nat.shiftRight_zero]
  omega

/-- Settles O11: in DONE the response is the digest byte of the index the argument holds, and an argument of 32 or more fails
the decoder's check. -/
theorem rddRespondsWithTheDigestByte : Obligations.RddRespondsWithTheDigestByte := by
  unfold Obligations.RddRespondsWithTheDigestByte
  refine ⟨fun i hi s => ⟨fun hp => ?_, rdd_raises_protocol _, ?_⟩, fun n hlo hhi => ?_⟩
  · refine ⟨_, rdd_of_done _ hp, rfl, ?_, ⟨rfl, rfl, rfl, rfl, rfl⟩, ⟨rfl, rfl, rfl, rfl, rfl, rfl⟩, ⟨rfl, rfl, rfl, rfl⟩⟩
    simp only [State.respond_rsp, rddIndex_ofNat hi]
  · exact congrArg Encoding.cmd16 (cmdWord_eq_ofNat 0x4 (by omega))
  · have hword : cmdWord 0x4 (BitVec.ofNat 8 n) = BitVec.ofNat 16 (0x4000 + n) := cmdWord_eq_ofNat 0x4 (by omega)
    have harg : ¬ BitVec.ofNat 8 n < 32 := by bv_omega
    rw [← hword, decodeCmd_rdd_illegal harg]

/-! The matrix of R247. -/

/-- In OPEN ABSORB counts its byte, or raises LENOVF at the limit. -/
theorem absorb_of_opened (b : Byte) (hp : s.phase = Phase.opened) (hf : s.fill.toNat ≤ 63) :
    (∃ t, exec (.absorb b) s = .next t ∧ t.errcode = s.errcode ∧ t.len = s.len + 1) ∨
      (s.len.toNat = 2 ^ 61 - 1 ∧ RaisesOnly .lenovf s (exec (.absorb b) s)) := by
  by_cases hlen : s.len.toNat = 2 ^ 61 - 1
  · exact .inr ⟨hlen, absorb_raises_lenovf b hp hlen⟩
  · obtain ⟨t, e, -, -, -, -, -, -, -, hlen', -, herr, -, -⟩ :=
      State.putByte_writes (s := s.noResponse.setLen (s.len + 1)) Phase.opened b hf
    exact .inl ⟨t, (absorb_eq_putByte b hp hlen).trans e, herr, hlen'⟩

/-- Settles O12: a busy block reads no word, and elsewhere each command is permitted or raises its error by PHASE alone. -/
theorem commandsAreLegalByPhase : Obligations.CommandsAreLegalByPhase := by
  unfold Obligations.CommandsAreLegalByPhase
  refine ⟨fun s hbusy => ⟨select_ne_illegalWord_of_busy hbusy, select_ne_command_of_busy hbusy⟩,
    fun s hinv hhost => ⟨⟨s.noResponse, rfl, rfl, rfl⟩, ⟨s.openMessage.noResponse, rfl, rfl, rfl⟩,
      fun b => ?_, ?_, fun arg => ?_, fun hr hv why hw => ?_⟩⟩
  · split_ifs with hp
    · exact absorb_of_opened b hp (hinv.fillBound (.inl hhost))
    · exact absorb_raises_protocol b hp
  · split_ifs with hp
    · exact ⟨_, final_of_opened hp, rfl, rfl⟩
    · exact final_raises_protocol hp
  · split_ifs with hp
    · exact ⟨_, rdd_of_done arg hp, rfl, rfl⟩
    · exact rdd_raises_protocol arg hp
  · exact raisesOnly_of_eq (blockStep_of_illegal_word hr hhost hv ⟨why, hw⟩)

end Sys2Proof.Machine
end

section
/-! SUPPORT. ERRCODE over one step (R32, R308): which operations keep it, which record an error in it while it is 0, and which
clear it; and the statement about it. -/

namespace Sys2Proof.Machine

variable {s t u : State}

/-- ERRCODE of `t` is that of `s`, or the code of an error where `s` had recorded none (R301). -/
def KeepsFirstError (s t : State) : Prop := t.errcode = s.errcode ∨ s.errcode = 0 ∧ ∃ e : Err, t.errcode = e.code

theorem Err.code_range (e : Err) : 1 ≤ e.code.toNat ∧ e.code.toNat ≤ 3 := by
  cases e <;> decide

theorem State.raiseErr_keepsFirstError (e : Err) (s : State) : KeepsFirstError s (s.raiseErr e) := by
  by_cases h0 : s.errcode = 0
  · exact .inr ⟨h0, e, by rw [State.raiseErr_errcode, if_pos h0]⟩
  · exact .inl (by rw [State.raiseErr_errcode, if_neg h0])

/-- The byte write records nothing. -/
theorem State.putByte_errcode {stay : BitVec 4} {v : Byte} (h : s.putByte stay v = .next t) : t.errcode = s.errcode := by
  obtain ⟨_, rfl⟩ := State.putByte_next h
  split <;> rfl

/-! The three commands that can raise an error. -/

theorem execAbsorb_keepsFirstError {b : Byte} (h : execAbsorb b s = .next t) : KeepsFirstError s t := by
  rcases execAbsorb_next h with ⟨-, rfl⟩ | ⟨-, -, rfl⟩ | ⟨-, -, hput⟩
  · exact s.raiseErr_keepsFirstError .protocol
  · exact s.raiseErr_keepsFirstError .lenovf
  · exact .inl (by simpa using State.putByte_errcode hput)

theorem execFinal_keepsFirstError (h : execFinal s = .next t) : KeepsFirstError s t := by
  rcases execFinal_next h with ⟨-, rfl⟩ | ⟨-, rfl⟩
  · exact s.raiseErr_keepsFirstError .protocol
  · exact .inl (by simp)

theorem execRdd_keepsFirstError {arg : Byte} (h : execRdd arg s = .next t) : KeepsFirstError s t := by
  rcases execRdd_next h with ⟨-, rfl⟩ | ⟨-, rfl⟩
  · exact s.raiseErr_keepsFirstError .protocol
  · exact .inl (by simp)

/-! The steps that accept what is on the port. -/

/-- The block takes a word, legal or not, from the port only while it is not busy and one is there (R240, R246). -/
theorem accepts_of_select (hs : (∃ i, select s = .command i) ∨ select s = .illegalWord) :
    s.busy = false ∧ s.cmdValid = true := by
  have hport : hostPhase s.phase = true ∧ s.cmdValid = true := by
    rcases hs with ⟨i, hs⟩ | hs
    · obtain ⟨-, hp, hv, -⟩ := select_command_iff.1 hs
      exact ⟨hp, hv⟩
    · obtain ⟨-, hp, hv, -⟩ := select_illegalWord_iff.1 hs
      exact ⟨hp, hv⟩
  exact ⟨Bool.eq_false_iff.2 fun hbusy => not_hostPhase_of_busy hbusy hport.1, hport.2⟩

/-! The block's step. -/

/-- Apart from reset and INIT, a step keeps the first error, and records one only when it accepts what is on the port. -/
theorem blockStep_errcode (h : blockStep s = .next u) :
    u.errcode = s.errcode ∨
      (KeepsFirstError s u ∧ ((∃ i, select s = .command i) ∨ select s = .illegalWord)) ∨
      (select s = .reset ∨ select s = .command .init) := by
  cases blockStep_case h with
  | reset hr _ => exact .inr (.inr (.inl (select_reset_iff.2 hr)))
  | pad _ _ _ e => exact .inl (by simpa using State.putByte_errcode (execPad_next e))
  | loadw _ _ _ e =>
    obtain ⟨_, rfl⟩ := execLoadw_next e
    exact .inl (by simp)
  | expand _ _ _ e =>
    obtain ⟨_, rfl⟩ := execExpand_next e
    exact .inl (by simp)
  | loadregs _ _ _ e =>
    cases e
    exact .inl (by simp)
  | round _ _ _ e =>
    obtain ⟨_, rfl⟩ := execRound_next e
    exact .inl (by simp)
  | accum _ _ _ e =>
    cases e
    exact .inl (by simp)
  | serial _ _ _ e =>
    cases e
    exact .inl (by simp)
  | nop _ _ _ e =>
    cases e
    exact .inl (by simp)
  | init _ _ hs _ => exact .inr (.inr (.inr hs))
  | absorb _ _ b hs e => exact .inr (.inl ⟨execAbsorb_keepsFirstError e, .inl ⟨_, hs⟩⟩)
  | final _ _ hs e => exact .inr (.inl ⟨execFinal_keepsFirstError e, .inl ⟨_, hs⟩⟩)
  | rdd _ _ arg _ hs e => exact .inr (.inl ⟨execRdd_keepsFirstError e, .inl ⟨_, hs⟩⟩)
  | illegalWord _ _ hs e => exact .inr (.inl ⟨e ▸ s.raiseErr_keepsFirstError .illegal, .inr hs⟩)
  | wait _ _ _ e => exact .inl (by simp [e])

/-- Reset and INIT clear ERRCODE (R308). -/
theorem blockStep_clears_errcode (h : blockStep s = .next u) (hs : select s = .reset ∨ select s = .command .init) :
    u.errcode = 0 := by
  rcases hs with hs | hs
  · have hreset : blockStep s = .next s.resetStep := by simp [blockStep, hs]
    cases hreset.symm.trans h
    rfl
  · have hinit : blockStep s = .next s.openMessage.noResponse := by
      simp only [blockStep, hs]
      rfl
    cases hinit.symm.trans h
    rfl

/-- Settles O39: the host's part of a step leaves ERRCODE alone, and the block's part keeps the first error, or clears it. -/
theorem firstErrorIsKeptUntilInitOrReset : Obligations.FirstErrorIsKeptUntilInitOrReset := by
  unfold Obligations.FirstErrorIsKeptUntilInitOrReset
  intro s t hstep
  obtain ⟨u, hblock, rfl⟩ := step_next_iff.1 hstep
  rw [State.driveHost_errcode]
  refine ⟨?_, blockStep_clears_errcode hblock⟩
  rcases blockStep_errcode hblock with hsame | ⟨hsame | ⟨h0, e, hcode⟩, haccepts⟩ | hclears
  · exact .inl hsame
  · exact .inl hsame
  · obtain ⟨hlow, hhigh⟩ := hcode ▸ e.code_range
    obtain ⟨hnotBusy, hvalid⟩ := accepts_of_select haccepts
    exact .inr (.inl ⟨h0, hlow, hhigh, hnotBusy, hvalid⟩)
  · exact .inr (.inr ⟨blockStep_clears_errcode hblock hclears, hclears⟩)

end Sys2Proof.Machine
end

section
/-! SUPPORT. Decoding and encoding as inverses (R90 to R95): the verdict on a word laid out from its fields, the one word of each
command, the masks of R91 as quotients, and the statements about them. -/

namespace Sys2Proof

open Sys2Proof.Machine

/-! The verdict on a command word. -/

/-- The checks of R95 on a word laid out by R90: its reserved bits are clear. -/
theorem decodeCmd_cmdWord (op : BitVec 4) (arg : Byte) : decodeCmd (cmdWord op arg) =
    if op = 0x0 then decodeBare .nop arg else if op = 0x1 then decodeBare .init arg
    else if op = 0x2 then .instr (.absorb arg) else if op = 0x3 then decodeBare .final arg
    else if op = 0x4 then if arg < 32 then .instr (.rdd arg) else .illegal .indexOutOfRange
    else .illegal .unassignedOp := by
  rw [decodeCmd, rsvField_cmdWord, opField_cmdWord, argField_cmdWord]
  simp

/-- Every well-formed instruction's encoding decodes to it. -/
theorem decode_encode : ∀ {i : Instr}, i.wellFormed = true → decode (encode i) = .instr i
  | .nop, _ => decodeCmd_cmdWord 0x0 0
  | .init, _ => decodeCmd_cmdWord 0x1 0
  | .absorb b, _ => decodeCmd_cmdWord 0x2 b
  | .final, _ => decodeCmd_cmdWord 0x3 0
  | .rdd arg, h => (decodeCmd_cmdWord 0x4 arg).trans (if_pos ((rdd_wellFormed_iff arg).1 h))
  | .pad, _ | .loadw, _ | .expand, _ | .loadregs, _ | .round, _ | .accum, _ | .serial, _ => by decide

/-- Settles O1: the fields of a command's word are those it was laid out from, and the PHASE codes are seven. -/
theorem encodedInstructionDecodesToItself : Obligations.EncodedInstructionDecodesToItself := by
  unfold Obligations.EncodedInstructionDecodesToItself
  exact fun i => decode_encode

theorem decodeBare_instr_iff {i j : Instr} {arg : Byte} : decodeBare i arg = .instr j ↔ arg = 0 ∧ j = i := by
  by_cases h : arg = 0
  · rw [decodeBare, if_pos h, Verdict.instr.injEq, eq_comm, and_iff_right h]
  · rw [decodeBare, if_neg h]
    exact iff_of_false Verdict.noConfusion fun hj => h hj.1

/-- A word that decodes to a command has its reserved bits clear, so it is laid out from its other two fields. -/
theorem encode_of_decodeCmd {w : BitVec 16} {i : Instr} (h : decodeCmd w = .instr i) :
    i.wellFormed = true ∧ encode i = .cmd16 w := by
  have hrsv : rsvField w = 0 := by
    by_contra hne
    rw [decodeCmd, if_pos hne] at h
    cases h
  generalize opField w = op, argField w = arg, eq_cmdWord hrsv = hw at h
  subst hw
  rw [decodeCmd_cmdWord] at h
  split_ifs at h with h0 h1 h2 h3 h4 harg
  · obtain ⟨rfl, rfl⟩ := decodeBare_instr_iff.1 h
    exact ⟨rfl, by rw [h0]; rfl⟩
  · obtain ⟨rfl, rfl⟩ := decodeBare_instr_iff.1 h
    exact ⟨rfl, by rw [h1]; rfl⟩
  · cases h
    exact ⟨rfl, by rw [h2]; rfl⟩
  · obtain ⟨rfl, rfl⟩ := decodeBare_instr_iff.1 h
    exact ⟨rfl, by rw [h3]; rfl⟩
  · cases h
    exact ⟨(rdd_wellFormed_iff arg).2 harg, by rw [h4]; rfl⟩

theorem encode_of_decodePhase {p : BitVec 4} {i : Instr} (h : decodePhase p = .instr i) :
    i.wellFormed = true ∧ encode i = .phase4 p := by
  rcases decodePhase_instr_iff.1 h with
    ⟨rfl, rfl⟩ | ⟨rfl, rfl⟩ | ⟨rfl, rfl⟩ | ⟨rfl, rfl⟩ | ⟨rfl, rfl⟩ | ⟨rfl, rfl⟩ | ⟨rfl, rfl⟩ <;> exact ⟨rfl, rfl⟩

/-- Settles O2: each format's decoder accepts only the encoding the encoder writes. -/
theorem decodingLosesNoBit : Obligations.DecodingLosesNoBit := by
  unfold Obligations.DecodingLosesNoBit
  intro e i h
  cases e with
  | cmd16 w => exact encode_of_decodeCmd h
  | phase4 p => exact encode_of_decodePhase h

/-- Settles O3: thirteen closed verdicts. -/
theorem decoderReadsTheTablesWords : Obligations.DecoderReadsTheTablesWords := by
  unfold Obligations.DecoderReadsTheTablesWords
  decide

/-! The masks of R91. -/

/-- A word decodes to a well-formed command exactly when it is that command's word. -/
theorem decodeCmd_instr_iff_encode {w : BitVec 16} {i : Instr} (hi : i.wellFormed = true) :
    decodeCmd w = .instr i ↔ encode i = .cmd16 w :=
  ⟨fun h => (encode_of_decodeCmd h).2, fun h => (congrArg decode h).symm.trans (decode_encode hi)⟩

theorem cmdWord_eq_iff_toNat {op : BitVec 4} {arg : Byte} {w : BitVec 16} :
    cmdWord op arg = w ↔ w.toNat = 4096 * op.toNat + arg.toNat := by
  rw [← BitVec.toNat_inj, toNat_cmdWord, eq_comm]

/-- A mask of ones from position k up keeps the multiple of 2^k. -/
theorem toNat_and_mask {n : Nat} (w : BitVec n) (k : Nat) :
    (w &&& (BitVec.allOnes n <<< k)).toNat = w.toNat / 2 ^ k * 2 ^ k := by
  have hmask : w &&& (BitVec.allOnes n <<< k) = w >>> k <<< k := by
    ext i hi
    by_cases hk : i < k <;> simp [hk, hi, Nat.le_of_not_lt]
  have hle : w.toNat / 2 ^ k * 2 ^ k < 2 ^ n := Nat.lt_of_le_of_lt (Nat.div_mul_le_self _ _) w.isLt
  rw [hmask, BitVec.toNat_shiftLeft, BitVec.toNat_ushiftRight, Nat.shiftRight_eq_div_pow, Nat.shiftLeft_eq,
    Nat.mod_eq_of_lt hle]

/-- The match of a command with an operand: the rest of the word is the low byte. -/
theorem cmdWord_iff_mask {op : BitVec 4} {arg : Byte} {w mask word : BitVec 16} {k : Nat}
    (hmask : mask = BitVec.allOnes 16 <<< k) (hword : word.toNat = 4096 * op.toNat) (harg : arg.toNat < 2 ^ k) (hk : k ≤ 8) :
    cmdWord op arg = w ↔ w &&& mask = word ∧ arg.toNat = w.toNat % 256 := by
  have := w.isLt
  rw [cmdWord_eq_iff_toNat, hmask, ← BitVec.toNat_inj, toNat_and_mask, hword]
  interval_cases k <;> omega

/-- The match of a command without an operand. -/
theorem cmdWord_zero_iff_mask {op : BitVec 4} {w word : BitVec 16} (hword : word = cmdWord op 0) :
    cmdWord op 0 = w ↔ w &&& 0xFFFF = word := by
  rw [show (0xFFFF : BitVec 16) = BitVec.allOnes 16 from rfl, BitVec.and_allOnes, hword, eq_comm]

/-- Settles O4: a word is a command exactly when it is the word the encoder writes, and a mask compares that word's fixed bits. -/
theorem commandWordsMatchTheirMasks : Obligations.CommandWordsMatchTheirMasks := by
  unfold Obligations.CommandWordsMatchTheirMasks
  intro w
  have hcmd {i : Instr} {op : BitVec 4} {arg : Byte} (hi : i.wellFormed = true) (he : encode i = .cmd16 (cmdWord op arg)) :
      decodeCmd w = .instr i ↔ cmdWord op arg = w := by
    rw [decodeCmd_instr_iff_encode hi, he, Encoding.cmd16.injEq]
  refine ⟨?_, ?_, fun b => ?_, ?_, fun arg => ?_⟩
  · exact (hcmd rfl rfl).trans (cmdWord_zero_iff_mask rfl)
  · exact (hcmd rfl rfl).trans (cmdWord_zero_iff_mask rfl)
  · exact (hcmd rfl rfl).trans (cmdWord_iff_mask (k := 8) rfl rfl b.isLt le_rfl)
  · exact (hcmd rfl rfl).trans (cmdWord_zero_iff_mask rfl)
  · by_cases hlt : arg.toNat < 32
    · exact (hcmd ((rdd_wellFormed_iff arg).2 hlt) rfl).trans (cmdWord_iff_mask (k := 5) rfl rfl hlt (by decide))
    · refine iff_of_false (fun h => hlt ((rdd_wellFormed_iff arg).1 (encode_of_decodeCmd h).1)) ?_
      rintro ⟨hmask, harg⟩
      have hrow := congrArg BitVec.toNat hmask
      rw [show (0xFFE0 : BitVec 16) = BitVec.allOnes 16 <<< 5 from rfl, toNat_and_mask,
        show BitVec.toNat (0x4000 : BitVec 16) = 0x4000 from rfl] at hrow
      omega

end Sys2Proof
end

section
/-! SUPPORT. The padding as a byte sequence: how many zeros fit (R161), the length field read back as a number (R166), and the
statements about them. -/

namespace Sys2Proof.Machine

/-! Lengths. -/

/-- zeros(n) is the distance from n + 1 to the next number that is 56 modulo 64. -/
theorem zeros_spec (n : Nat) : (n + 1 + zeros n) % 64 = 56 ∧ zeros n ≤ 63 := by
  unfold zeros
  omega

theorem zeros_le_of_fits {n k : Nat} (h : (n + 1 + k) % 64 = 56) : zeros n ≤ k := by
  unfold zeros
  omega

theorem add_padlen (n : Nat) : n + padlen n = 64 * nblocks n := by
  unfold padlen nblocks zeros
  omega

@[simp] theorem length_be64 (v : BitVec 64) : (be64 v).length = 8 := List.length_ofFn

theorem length_pad_eq_add (m : List Byte) : (pad m).length = m.length + padlen m.length := by
  simp [pad, padlen]

theorem length_pad (m : List Byte) : (pad m).length = 64 * nblocks m.length := by
  rw [length_pad_eq_add, add_padlen]

/-- Settles O15: `zeros` is the distance to the next place where the length field ends a chunk, and `padlen` adds nine bytes. -/
theorem zeroBytesAreTheFewestThatFit : Obligations.ZeroBytesAreTheFewestThatFit := by
  unfold Obligations.ZeroBytesAreTheFewestThatFit
  intro n
  obtain ⟨hfits, hmax⟩ := zeros_spec n
  exact ⟨hfits, fun _ => zeros_le_of_fits, hmax, add_padlen n, Nat.le_add_left 9 _, Nat.add_le_add_right hmax 9, length_pad⟩

/-! The length field. -/

/-- A big-endian byte sequence as a number. -/
def bigEndian (bytes : List Byte) : Nat := bytes.foldl (fun v b => 256 * v + b.toNat) 0

theorem bigEndian_be64 (v : BitVec 64) : bigEndian (be64 v) = v.toNat := by
  have := v.isLt
  simp only [bigEndian, be64, List.ofFn_succ, List.ofFn_zero, List.foldl_cons, List.foldl_nil, BitVec.extractLsb'_toNat,
    Nat.shiftRight_eq_div_pow]
  simp
  omega

theorem bitLength_toNat {n : Nat} (h : n < 2 ^ 61) : (bitLength n).toNat = 8 * n := by
  rw [bitLength, if_pos (by omega), BitVec.toNat_ofNat, Nat.mod_eq_of_lt (by omega)]

theorem drop_pad (m : List Byte) : (pad m).drop ((pad m).length - 8) = be64 (bitLength m.length) := by
  have hlen : (pad m).length - 8 = (m ++ [0x80] ++ List.replicate (zeros m.length) 0x00).length := by
    simp only [pad, List.length_append, length_be64]
    omega
  rw [hlen]
  exact List.drop_left

theorem pad_nil : pad [] = [0x80] ++ List.replicate 63 0x00 := by decide

/-- Settles O16: the length field is the last part of `pad m`, eight bytes that spell 8|m|. -/
theorem paddingEndsWithTheBitLength : Obligations.PaddingEndsWithTheBitLength := by
  unfold Obligations.PaddingEndsWithTheBitLength
  refine ⟨fun m hm => ⟨?_, ?_, ?_, ?_⟩, pad_nil⟩
  · rw [length_pad]
    omega
  · rw [length_pad, nblocks]
    omega
  · rw [drop_pad]
    exact (bigEndian_be64 _).trans (bitLength_toNat hm)
  · simp [pad]

end Sys2Proof.Machine
end

section
/-! SUPPORT. The sum modulo 2^32 (R120), the bitwise choices (R129, R130), the tables (R131, R132), and the statements about
them. -/

namespace Sys2Proof.Machine

theorem add32_toNat (xs : List Word) : (add32 xs).toNat = (xs.map BitVec.toNat).sum % 2 ^ 32 := BitVec.toNat_ofNat _ _

theorem add32_perm {xs ys : List Word} (h : xs.Perm ys) : add32 xs = add32 ys :=
  congrArg (BitVec.ofNat 32) (h.map BitVec.toNat).sum_eq

/-- Settles O27: the reduction is a sum of natural numbers, which no order changes, and words add with the same reduction. -/
theorem additionWrapsInAnyOrder : Obligations.AdditionWrapsInAnyOrder := by
  unfold Obligations.AdditionWrapsInAnyOrder
  exact ⟨fun _ _ => add32_perm, fun x xs => ⟨add32_cons x xs, add32_toNat (x :: xs)⟩, by decide, by decide, by decide⟩

theorem ch_getLsbD (x y z : Word) {i : Nat} (hi : i < 32) :
    (ch x y z).getLsbD i = if x.getLsbD i then y.getLsbD i else z.getLsbD i := by
  simp only [ch, BitVec.getLsbD_xor, BitVec.getLsbD_and, BitVec.getLsbD_not, hi, decide_true, Bool.true_and]
  cases x.getLsbD i <;> simp

theorem maj_getLsbD (x y z : Word) (i : Nat) : (maj x y z).getLsbD i = true ↔
    2 ≤ (x.getLsbD i).toNat + (y.getLsbD i).toNat + (z.getLsbD i).toNat := by
  simp only [maj, BitVec.getLsbD_xor, BitVec.getLsbD_and]
  cases x.getLsbD i <;> cases y.getLsbD i <;> cases z.getLsbD i <;> decide

/-- Settles O30: both functions act bit by bit, Ch by the two values of x's bit and Maj by the eight cases. -/
theorem chooseAndMajorityAreBitwise : Obligations.ChooseAndMajorityAreBitwise := by
  unfold Obligations.ChooseAndMajorityAreBitwise
  exact fun x y z i hi => ⟨ch_getLsbD x y z (Nat.lt_succ_of_le hi), maj_getLsbD x y z i⟩

/-- Settles O31: the tables are closed, so the checks compute. -/
theorem romsPassTheTranscriptionChecks : Obligations.RomsPassTheTranscriptionChecks := by
  unfold Obligations.RomsPassTheTranscriptionChecks
  decide

end Sys2Proof.Machine
end

section
/-! SUPPORT. The effect of an instruction that goes on, said once as the state it answers: every claim about all instructions or
all steps is a case split over these effects. -/

namespace Sys2Proof.Machine

variable {s t u : State} {i : Instr}

/-- The state after the byte write of ABSORB and PAD: the 64th byte of a chunk enters LOADW with T = 0, any other enters `stay`
and leaves T alone (R163, R243). -/
def State.storeByte (s : State) (stay : BitVec 4) (v : Byte) (hf : s.fill.toNat < 64) : State :=
  (((s.setBlk (s.blk.set s.fill.toNat v hf)).setFill (s.fill + 1)).setPhase
    (if s.fill.toNat = 63 then Phase.loadw else stay)).setT (if s.fill.toNat = 63 then 0 else s.t)

theorem State.putByte_eq_storeByte (stay : BitVec 4) (v : Byte) (hf : s.fill.toNat < 64) :
    s.putByte stay v = .next (s.storeByte stay v hf) := by
  rw [State.putByte_of_lt stay v hf, State.storeByte]
  split_ifs <;> rfl

theorem State.putByte_eq_next (stay : BitVec 4) (v : Byte) (h : s.putByte stay v = .next t) :
    ∃ hf : s.fill.toNat < 64, t = s.storeByte stay v hf := by
  obtain ⟨hf, -⟩ := State.putByte_next h
  exact ⟨hf, Host.Outcome.next.inj (h.symm.trans (s.putByte_eq_storeByte stay v hf))⟩

/-- What each instruction can do when it goes on, as an equation for the next state; four of the commands' effects are the errors
of R303 and R305. -/
inductive Effect (s : State) : Instr → State → Prop
  | nop : Effect s .nop s.noResponse
  | init : Effect s .init s.openMessage.noResponse
  | absorb (b : Byte) (hp : s.phase = Phase.opened) (hlen : s.len.toNat ≠ 2 ^ 61 - 1) (hf : s.fill.toNat < 64) :
      Effect s (.absorb b) ((s.storeByte Phase.opened b hf).setLen (s.len + 1)).noResponse
  | absorbProtocol (b : Byte) (hp : s.phase ≠ Phase.opened) : Effect s (.absorb b) (s.raiseErr .protocol)
  | absorbLenovf (b : Byte) (hp : s.phase = Phase.opened) (hlen : s.len.toNat = 2 ^ 61 - 1) :
      Effect s (.absorb b) (s.raiseErr .lenovf)
  | final (hp : s.phase = Phase.opened) : Effect s .final ((s.setPadp .p80).setPhase Phase.pad).noResponse
  | finalProtocol (hp : s.phase ≠ Phase.opened) : Effect s .final (s.raiseErr .protocol)
  | rdd (arg : Byte) (hp : s.phase = Phase.done) :
      Effect s (.rdd arg) (s.respond (s.digest[(rddIndex arg).toNat]'(rddIndex arg).isLt))
  | rddProtocol (arg : Byte) (hp : s.phase ≠ Phase.done) : Effect s (.rdd arg) (s.raiseErr .protocol)
  | pad (hf : s.fill.toNat < 64) : Effect s .pad
      ((s.storeByte Phase.pad (padSelect s.padp s.fill s.len).1 hf).setPadp (padSelect s.padp s.fill s.len).2).noResponse
  | loadw (ht : s.t.toNat < 16) : Effect s .loadw
      (((s.setW (s.w.set s.t.toNat (memRead s.blk (4 * s.t.toNat) (by omega)))).setT (s.t + 1)).setPhase
        (if s.t.toNat = 15 then Phase.expand else Phase.loadw)).noResponse
  | expand (lo : 16 ≤ s.t.toNat) (hi : s.t.toNat < 64) : Effect s .expand
      (((s.setW (s.w.set s.t.toNat (scheduleWord s.w s.t.toNat lo hi))).setT (s.t + 1)).setPhase
        (if s.t.toNat = 63 then Phase.loadregs else Phase.expand)).noResponse
  | loadregs : Effect s .loadregs (((s.setA s.h).setT 0).setPhase Phase.round).noResponse
  | round (ht : s.t.toNat < 64) : Effect s .round
      (((s.setA (mixRound s.a K[s.t.toNat] s.w[s.t.toNat])).setT (s.t + 1)).setPhase
        (if s.t.toNat = 63 then Phase.accum else Phase.round)).noResponse
  | accum : Effect s .accum
      (((s.setH (accumulate s.h s.a)).setFill 0).setPhase (phaseAfterChunk s.padp)).noResponse
  | serial : Effect s .serial ((s.setDigest (serialize s.h)).setPhase Phase.done).noResponse

theorem count_eq_16_iff (i : BitVec 7) : i + 1 = 16 ↔ i.toNat = 15 := by bv_omega

theorem count_eq_64_iff (i : BitVec 7) : i + 1 = 64 ↔ i.toNat = 63 := by bv_omega

theorem exec_effect (h : exec i s = .next t) : Effect s i t := by
  cases i with
  | nop => cases h; exact .nop
  | init => cases h; exact .init
  | absorb b =>
    rcases execAbsorb_next h with ⟨hp, rfl⟩ | ⟨hp, hlen, rfl⟩ | ⟨hp, hlen, hput⟩
    · exact .absorbProtocol b hp
    · exact .absorbLenovf b hp (len_eq_allOnes_iff.1 hlen)
    · obtain ⟨hf, rfl⟩ := State.putByte_eq_next _ _ hput
      exact .absorb b hp (mt len_eq_allOnes_iff.2 hlen) hf
  | final =>
    rcases execFinal_next h with ⟨hp, rfl⟩ | ⟨hp, rfl⟩
    · exact .finalProtocol hp
    · exact .final hp
  | rdd arg =>
    rcases execRdd_next h with ⟨hp, rfl⟩ | ⟨hp, rfl⟩
    · exact .rddProtocol arg hp
    · exact .rdd arg hp
  | pad =>
    obtain ⟨hf, rfl⟩ := State.putByte_eq_next _ _ (execPad_next h)
    exact .pad (s := s) hf
  | loadw =>
    obtain ⟨ht, rfl⟩ := execLoadw_next h
    simp only [count_eq_16_iff]
    exact .loadw ht
  | expand =>
    obtain ⟨ht, rfl⟩ := execExpand_next h
    simp only [count_eq_64_iff]
    exact .expand ht.1 ht.2
  | loadregs => cases h; exact .loadregs
  | round =>
    obtain ⟨ht, rfl⟩ := execRound_next h
    simp only [count_eq_64_iff]
    exact .round ht
  | accum => cases h; exact .accum
  | serial => cases h; exact .serial

/-! What the effects have in common. -/

theorem Effect.sameHost (e : Effect s i t) : SameHost s t := by
  cases e <;> simp [SameHost, State.storeByte]

theorem exec_sameHost (h : exec i s = .next t) : SameHost s t := (exec_effect h).sameHost

/-- Settles O44: no effect writes a port that the host drives, or its script. -/
theorem meaningsLeaveTheHostAlone : Obligations.MeaningsLeaveTheHostAlone := by
  unfold Obligations.MeaningsLeaveTheHostAlone
  exact fun _ _ _ => exec_sameHost

/-- A micro-operation writes neither LEN nor ERRCODE and gives no response; only PAD writes PADP, only PAD and ACCUM FILL. -/
theorem Effect.micro_frame (e : Effect s i t) (hi : i.isCommand = false) :
    t.len = s.len ∧ t.errcode = s.errcode ∧ t.rspValid = false ∧ (i ≠ .pad → t.padp = s.padp) ∧
      (i ≠ .pad → i ≠ .accum → t.fill = s.fill) := by
  cases e <;> simp_all [State.storeByte, Instr.isCommand]

/-- The response port carries a byte only after RDD in DONE (R245). -/
theorem Effect.rspValid (e : Effect s i t) (hv : t.rspValid = true) :
    ∃ arg, i = .rdd arg ∧ s.phase = Phase.done ∧ t.rsp = s.digest[(rddIndex arg).toNat]'(rddIndex arg).isLt := by
  cases e with
  | rdd arg hp => exact ⟨arg, rfl, hp, rfl⟩
  | _ => simp [State.storeByte] at hv

/-- Column "written by" of the table of registers, over one instruction (10_state.md section 1). -/
theorem Effect.writtenBy (e : Effect s i t) :
    (t.h ≠ s.h → i = .init ∨ i = .accum) ∧ (t.a ≠ s.a → i = .loadregs ∨ i = .round) ∧
    (t.w ≠ s.w → i = .loadw ∨ i = .expand) ∧ (t.blk ≠ s.blk → (∃ b, i = .absorb b) ∨ i = .pad) ∧
    (t.digest ≠ s.digest → i = .serial) ∧
    (t.fill ≠ s.fill → i = .init ∨ (∃ b, i = .absorb b) ∨ i = .pad ∨ i = .accum) ∧
    (t.len ≠ s.len → i = .init ∨ ∃ b, i = .absorb b) ∧
    (t.t ≠ s.t → (∃ b, i = .absorb b) ∨ i = .pad ∨ i = .loadw ∨ i = .expand ∨ i = .loadregs ∨ i = .round) ∧
    (t.padp ≠ s.padp → i = .init ∨ i = .final ∨ i = .pad) := by
  cases e <;> simp [State.storeByte]

end Sys2Proof.Machine
end

section
/-! SUPPORT. The step as a function of what it selects (R12), its frame on the host's side, and the statements that say which
steps write what, and when a response comes. -/

namespace Sys2Proof.Machine

variable {s t u : State} {i : Instr}

/-! The block's step and the host's part, selection by selection. -/

/-- What selects an instruction: a command is accepted, a micro-operation is due. -/
def Instr.selection (i : Instr) : Selection := if i.isCommand then .command i else .micro i

theorem select_eq_selection (h : select s = .command i ∨ select s = .micro i) : select s = Instr.selection i := by
  rcases h with h | h
  · obtain ⟨-, -, -, hd⟩ := select_command_iff.1 h
    rcases decodeCmd_instr hd with rfl | rfl | rfl | rfl | ⟨rfl, -⟩ <;> exact h
  · obtain ⟨-, hd⟩ := select_micro_iff.1 h
    rcases decodePhase_instr_iff.1 hd with ⟨-, rfl⟩ | ⟨-, rfl⟩ | ⟨-, rfl⟩ | ⟨-, rfl⟩ | ⟨-, rfl⟩ | ⟨-, rfl⟩ | ⟨-, rfl⟩ <;> exact h

/-- The block's step that goes on: an instruction's effect, a reset, an illegal word, or a wait. -/
inductive BlockEffect (s u : State) : Prop
  | reset (hs : select s = .reset) (e : u = s.resetStep)
  | instr (i : Instr) (hs : select s = Instr.selection i) (e : Effect s i u)
  | illegalWord (hs : select s = .illegalWord) (e : u = s.raiseErr .illegal)
  | wait (hs : select s = .wait) (e : u = s.noResponse)

theorem blockStep_effect (h : blockStep s = .next u) : BlockEffect s u := by
  rcases blockStep_next h with ⟨hs, e⟩ | ⟨i, hs, e⟩ | ⟨i, hs, e⟩ | ⟨hs, e⟩ | ⟨hs, e⟩
  · exact .reset hs e
  · exact .instr i (select_eq_selection (.inr hs)) (exec_effect e)
  · exact .instr i (select_eq_selection (.inl hs)) (exec_effect e)
  · exact .illegalWord hs e
  · exact .wait hs e

theorem blockStep_of_micro (hr : s.rst = false) (hp : decodePhase s.phase = .instr i) : blockStep s = exec i s := by
  simp [blockStep, select_micro_iff.2 ⟨hr, hp⟩]

theorem blockStep_of_command (hs : select s = .command i) : blockStep s = exec i s := by
  simp [blockStep, hs]

theorem State.heldAfter_of_busy (hb : s.busy = true) (hr : s.rst = false) : s.heldAfter = s.cmdValid := by
  simp [State.heldAfter, hb, hr]

theorem State.heldAfter_of_hostPhase (hp : hostPhase s.phase = true) : s.heldAfter = false := by
  have hb : s.busy = false := Bool.eq_false_iff.2 fun hb => not_hostPhase_of_busy hb hp
  simp [State.heldAfter, hb]

/-- The host's part of a step writes no register. -/
theorem State.driveHost_sameArrays (s : State) (held : Bool) : SameArrays s (s.driveHost held) := by
  simp [SameArrays]

theorem State.driveHost_sameControl (s : State) (held : Bool) : SameControl s (s.driveHost held) := by
  simp [SameControl]

/-- Settles O32: each clause is one selection, and the held command is the one a busy block leaves on the port. -/
theorem stepRunsTheDecodedInstruction : Obligations.StepRunsTheDecodedInstruction := by
  unfold Obligations.StepRunsTheDecodedInstruction
  intro s hr
  have hstep (hp : hostPhase s.phase = true) : step s = afterStep false (blockStep s) := by
    rw [step, State.heldAfter_of_hostPhase hp]
  refine ⟨fun i hi => ?_, fun i hp hv hi => ?_, fun why hp hv hw => ?_, fun hp hv => ?_, fun hp => ?_⟩
  · rw [step, State.heldAfter_of_busy (busy_iff_decodePhase.2 ⟨i, hi⟩) hr, blockStep_of_micro hr hi]
  · rw [hstep hp, blockStep_of_command (select_command_iff.2 ⟨hr, hp, hv, hi⟩)]
  · rw [hstep hp, blockStep_of_illegal_word hr hp hv ⟨why, hw⟩]
    rfl
  · rw [hstep hp, blockStep, select_wait_iff.2 ⟨hr, hp, hv⟩]
    rfl
  · rw [step_fault_iff, blockStep, select_stuck_iff.2 ⟨hr, hp⟩]

/-- Settles O34: the last clause of O32, and the reset step. -/
theorem reservedPhasesOnlyReset : Obligations.ReservedPhasesOnlyReset := by
  unfold Obligations.ReservedPhasesOnlyReset
  intro s hp
  refine ⟨fun hr => ?_, fun hr => ⟨_, step_of_rst hr, by simp⟩⟩
  obtain ⟨-, -, -, -, hstuck⟩ := stepRunsTheDecodedInstruction s hr
  exact hstuck hp

/-- Settles O35: each index is checked before the access. -/
theorem indicesOutsideTheArraysStop : Obligations.IndicesOutsideTheArraysStop := by
  unfold Obligations.IndicesOutsideTheArraysStop
  intro s
  refine ⟨fun h => ?_, fun h => ?_, fun h => ?_, fun h => ?_, fun h hp hlen b => ?_⟩
  · exact dif_neg (by omega)
  · exact dif_neg (by omega)
  · exact dif_neg (by omega)
  · exact State.putByte_of_ge (s := s.noResponse.setPadp (padSelect s.padp s.fill s.len).2) _ _ h
  · exact (absorb_eq_putByte b hp hlen).trans (State.putByte_of_ge (s := s.noResponse.setLen (s.len + 1)) _ _ h)

/-- A wait is a step without a response. -/
theorem step_of_wait (hp : hostPhase s.phase = true) (hr : s.rst = false) (hv : s.cmdValid = false) :
    step s = .next (s.noResponse.driveHost false) := by
  obtain ⟨-, -, -, hwait, -⟩ := stepRunsTheDecodedInstruction s hr
  exact hwait hp hv

/-- Settles O38: neither part of a waiting step writes a register. -/
theorem waitingKeepsAllState : Obligations.WaitingKeepsAllState := by
  unfold Obligations.WaitingKeepsAllState
  intro s hp hr hv
  exact ⟨_, step_of_wait hp hr hv, s.noResponse.driveHost_sameArrays false, s.noResponse.driveHost_sameControl false, by simp⟩

/-- A busy block's step: its micro-operation, then the host's part with the command, if any, held. -/
theorem step_of_busy (hb : s.busy = true) (hr : s.rst = false) (h : step s = .next t) :
    ∃ i u, decodePhase s.phase = .instr i ∧ exec i s = .next u ∧ t = u.driveHost s.cmdValid := by
  obtain ⟨i, hi⟩ := busy_iff_decodePhase.1 hb
  obtain ⟨u, hu, rfl⟩ := step_next_iff.1 h
  rw [blockStep_of_micro hr hi] at hu
  exact ⟨i, u, hi, hu, by rw [State.heldAfter_of_busy hb hr]⟩

theorem isCommand_of_decodePhase {p : BitVec 4} (h : decodePhase p = .instr i) : i.isCommand = false := by
  rcases decodePhase_instr_iff.1 h with ⟨-, rfl⟩ | ⟨-, rfl⟩ | ⟨-, rfl⟩ | ⟨-, rfl⟩ | ⟨-, rfl⟩ | ⟨-, rfl⟩ | ⟨-, rfl⟩ <;> rfl

/-- Settles O37: the host's part holds the command, and a micro-operation leaves the port, ERRCODE and the response alone. -/
theorem busyBlockHoldsTheCommand : Obligations.BusyBlockHoldsTheCommand := by
  unfold Obligations.BusyBlockHoldsTheCommand
  intro s t hb hv hr h
  obtain ⟨i, u, hi, hu, rfl⟩ := step_of_busy hb hr h
  obtain ⟨-, herr, hrsp, -⟩ := (exec_effect hu).micro_frame (isCommand_of_decodePhase hi)
  obtain ⟨-, -, hcmd, -⟩ := exec_sameHost hu
  obtain ⟨hvalid', hcmd'⟩ := u.driveHost_held
  rw [hv]
  exact ⟨hvalid', hcmd'.trans hcmd, (u.driveHost_errcode true).trans herr, (u.driveHost_rspValid true).trans hrsp,
    i, u, hi, hu, u.driveHost_sameArrays true, u.driveHost_sameControl true⟩

/-- Settles O40: of the block's effects RDD's alone raises rsp_valid, and the decoder lets only indices below 32 through. -/
theorem onlyRddResponds : Obligations.OnlyRddResponds := by
  unfold Obligations.OnlyRddResponds
  intro s t h hv
  obtain ⟨u, hu, rfl⟩ := step_next_iff.1 h
  rw [State.driveHost_rspValid] at hv
  rw [State.driveHost_rsp]
  cases blockStep_effect hu with
  | reset _ e => simp [e] at hv
  | illegalWord _ e => simp [e] at hv
  | wait _ e => simp [e] at hv
  | instr i hs e =>
    obtain ⟨arg, rfl, hp, hrsp⟩ := e.rspValid hv
    have hs : select s = .command (.rdd arg) := hs
    obtain ⟨hr, -, -, hd⟩ := select_command_iff.1 hs
    have harg : arg.toNat < 32 := (rdd_wellFormed_iff arg).1 (encode_of_decodeCmd hd).1
    have hindex : (rddIndex arg).toNat = arg.toNat := by simpa using rddIndex_ofNat harg
    exact ⟨arg.toNat, harg, by simpa using hs, hp, hr, by simp only [hrsp, hindex]⟩

end Sys2Proof.Machine
end

section
/-! SUPPORT. The transition table (R275) and the table of registers (10_state.md section 1), read off the effects, and the
statements about them. -/

namespace Sys2Proof.Machine

variable {s t u : State} {i : Instr}

/-- Settles O41: the host's part writes no register, an instruction only those of its effect, and the other steps none. -/
theorem registersAreWrittenOnlyByTheirSteps : Obligations.RegistersAreWrittenOnlyByTheirSteps := by
  unfold Obligations.RegistersAreWrittenOnlyByTheirSteps
  intro s t h hr
  obtain ⟨u, hu, rfl⟩ := step_next_iff.1 h
  simp only [State.driveHost_h, State.driveHost_a, State.driveHost_w, State.driveHost_blk, State.driveHost_digest,
    State.driveHost_fill, State.driveHost_len, State.driveHost_t, State.driveHost_padp]
  cases blockStep_effect hu with
  | reset hs _ => simp [select_reset_iff.1 hs] at hr
  | illegalWord _ e => simp [e]
  | wait _ e => simp [e]
  | instr i hs e =>
    obtain ⟨hh, ha, hw, hblk, hdigest, hfill, hlen, ht, hpadp⟩ := e.writtenBy
    refine ⟨fun hne => ?_, fun hne => ?_, fun hne => ?_, fun hne => ?_, fun hne => ?_, fun hne => ?_, fun hne => ?_,
      fun hne => ?_, fun hne => ?_⟩
    · rcases hh hne with rfl | rfl <;> simp [hs, Instr.selection, Instr.isCommand]
    · rcases ha hne with rfl | rfl <;> simp [hs, Instr.selection, Instr.isCommand]
    · rcases hw hne with rfl | rfl <;> simp [hs, Instr.selection, Instr.isCommand]
    · rcases hblk hne with ⟨b, rfl⟩ | rfl <;> simp [hs, Instr.selection, Instr.isCommand]
    · rcases hdigest hne with rfl
      exact hs
    · rcases hfill hne with rfl | ⟨b, rfl⟩ | rfl | rfl <;> simp [hs, Instr.selection, Instr.isCommand]
    · rcases hlen hne with rfl | ⟨b, rfl⟩ <;> simp [hs, Instr.selection, Instr.isCommand]
    · rcases ht hne with ⟨b, rfl⟩ | rfl | rfl | rfl | rfl | rfl <;> simp [hs, Instr.selection, Instr.isCommand]
    · rcases hpadp hne with rfl | rfl | rfl <;> simp [hs, Instr.selection, Instr.isCommand]

/-! A selected step, as an effect and the host's part. -/

theorem step_of_command (hs : select s = .command i) (h : step s = .next t) :
    ∃ u, Effect s i u ∧ t = u.driveHost false := by
  obtain ⟨-, hp, -, -⟩ := select_command_iff.1 hs
  obtain ⟨u, hu, rfl⟩ := step_next_iff.1 h
  rw [blockStep_of_command hs] at hu
  exact ⟨u, exec_effect hu, by rw [State.heldAfter_of_hostPhase hp]⟩

theorem step_of_micro (hr : s.rst = false) (hd : decodePhase s.phase = .instr i) (h : step s = .next t) :
    ∃ u, Effect s i u ∧ t = u.driveHost s.cmdValid := by
  obtain ⟨j, u, hj, hu, rfl⟩ := step_of_busy (busy_iff_decodePhase.2 ⟨i, hd⟩) hr h
  cases hd.symm.trans hj
  exact ⟨u, exec_effect hu, rfl⟩

theorem step_of_illegalWord (hs : select s = .illegalWord) (h : step s = .next t) :
    t = (s.raiseErr .illegal).driveHost false := by
  obtain ⟨hr, hp, hv, why, hw⟩ := select_illegalWord_iff.1 hs
  obtain ⟨-, -, hill, -⟩ := stepRunsTheDecodedInstruction s hr
  exact Host.Outcome.next.inj (h.symm.trans (hill why hp hv hw))

theorem decodePhase_of_eq {p q : BitVec 4} (hp : p = q) (hq : decodePhase q = .instr i) : decodePhase p = .instr i :=
  hp ▸ hq

/-! The rows of the table: the host's steps. -/

theorem quiet_step_control (hs : select s = .command .nop ∨ select s = .wait) (h : step s = .next t) : SameControl s t := by
  rcases hs with hs | hs
  · obtain ⟨u, ⟨⟩, rfl⟩ := step_of_command hs h
    simp [SameControl]
  · obtain ⟨hr, hp, hv⟩ := select_wait_iff.1 hs
    cases h.symm.trans (step_of_wait hp hr hv)
    simp [SameControl]

theorem absorb_step_control {b : Byte} (hs : select s = .command (.absorb b)) (hp : s.phase = Phase.opened)
    (hlen : s.len.toNat ≠ 2 ^ 61 - 1) (h : step s = .next t) :
    t.len = s.len + 1 ∧ t.padp = s.padp ∧ t.errcode = s.errcode ∧ t.fill = s.fill + 1 ∧
      (if s.fill.toNat = 63 then t.phase = Phase.loadw ∧ t.t = 0 else t.phase = Phase.opened ∧ t.t = s.t) := by
  obtain ⟨u, e, rfl⟩ := step_of_command hs h
  cases e with
  | absorb _ _ _ hf => split_ifs with hlast <;> simp [State.storeByte, hlast]
  | absorbProtocol _ hne => exact absurd hp hne
  | absorbLenovf _ _ hmax => exact absurd hmax hlen

theorem final_step_control (hs : select s = .command .final) (hp : s.phase = Phase.opened) (h : step s = .next t) :
    t.phase = Phase.pad ∧ t.padp = .p80 ∧ t.fill = s.fill ∧ t.len = s.len ∧ t.t = s.t ∧ t.errcode = s.errcode := by
  obtain ⟨u, e, rfl⟩ := step_of_command hs h
  cases e with
  | final => simp
  | finalProtocol hne => exact absurd hp hne

theorem rdd_step_control {arg : Byte} (hs : select s = .command (.rdd arg)) (hp : s.phase = Phase.done)
    (h : step s = .next t) : SameControl s t := by
  obtain ⟨u, e, rfl⟩ := step_of_command hs h
  cases e with
  | rdd => simp [SameControl]
  | rddProtocol _ hne => exact absurd hp hne

/-- The ways to raise an error, with the error each raises (R302, R303, R305). -/
def Raises (s : State) (e : Err) : Prop :=
  (e = .illegal ∧ select s = .illegalWord) ∨
  (e = .protocol ∧ s.phase ≠ Phase.opened ∧ (select s = .command .final ∨ ∃ b, select s = .command (.absorb b))) ∨
  (e = .protocol ∧ s.phase ≠ Phase.done ∧ ∃ arg, select s = .command (.rdd arg)) ∨
  (e = .lenovf ∧ s.phase = Phase.opened ∧ s.len.toNat = 2 ^ 61 - 1 ∧ ∃ b, select s = .command (.absorb b))

/-- Each of them is the shared error operation. -/
theorem step_of_raises {e : Err} (he : Raises s e) (h : step s = .next t) : t = (s.raiseErr e).driveHost false := by
  rcases he with ⟨rfl, hs⟩ | ⟨rfl, hp, hs | ⟨b, hs⟩⟩ | ⟨rfl, hp, arg, hs⟩ | ⟨rfl, hp, hlen, b, hs⟩
  · exact step_of_illegalWord hs h
  · obtain ⟨u, e, rfl⟩ := step_of_command hs h
    cases e with
    | final hp' => exact absurd hp' hp
    | finalProtocol => rfl
  · obtain ⟨u, e, rfl⟩ := step_of_command hs h
    cases e with
    | absorb _ hp' => exact absurd hp' hp
    | absorbProtocol => rfl
    | absorbLenovf _ hp' => exact absurd hp' hp
  · obtain ⟨u, e, rfl⟩ := step_of_command hs h
    cases e with
    | rdd _ hp' => exact absurd hp' hp
    | rddProtocol => rfl
  · obtain ⟨u, e, rfl⟩ := step_of_command hs h
    cases e with
    | absorb _ _ hlen' => exact absurd hlen hlen'
    | absorbProtocol _ hp' => exact absurd hp hp'
    | absorbLenovf => rfl

/-! The rows of the table: the micro-operations. -/

theorem busy_step_frame (hr : s.rst = false) (hb : s.busy = true) (h : step s = .next t) :
    t.len = s.len ∧ t.errcode = s.errcode ∧ (s.phase ≠ Phase.pad → t.padp = s.padp) ∧
      (s.phase ≠ Phase.pad → s.phase ≠ Phase.accum → t.fill = s.fill) := by
  obtain ⟨i, u, hd, hu, rfl⟩ := step_of_busy hb hr h
  obtain ⟨hlen, herr, -, hpadp, hfill⟩ := (exec_effect hu).micro_frame (isCommand_of_decodePhase hd)
  have hpad : i = .pad → s.phase = Phase.pad := by rintro rfl; simpa using decodePhase_instr_iff.1 hd
  have haccum : i = .accum → s.phase = Phase.accum := by rintro rfl; simpa using decodePhase_instr_iff.1 hd
  simp only [State.driveHost_len, State.driveHost_errcode, State.driveHost_padp, State.driveHost_fill]
  exact ⟨hlen, herr, fun hp => hpadp (mt hpad hp), fun hp ha => hfill (mt hpad hp) (mt haccum ha)⟩

theorem pad_step_control (hr : s.rst = false) (hp : s.phase = Phase.pad) (h : step s = .next t) :
    t.fill = s.fill + 1 ∧ t.padp = (padSelect s.padp s.fill s.len).2 ∧
      (if s.fill.toNat = 63 then t.phase = Phase.loadw ∧ t.t = 0 else t.phase = Phase.pad ∧ t.t = s.t) := by
  obtain ⟨u, ⟨⟩, rfl⟩ := step_of_micro (i := .pad) hr (decodePhase_of_eq hp (by decide)) h
  split_ifs with hlast <;> simp [State.storeByte, hlast]

theorem loadw_step_control (hr : s.rst = false) (hp : s.phase = Phase.loadw) (h : step s = .next t) :
    t.t = s.t + 1 ∧ t.phase = if s.t.toNat = 15 then Phase.expand else Phase.loadw := by
  obtain ⟨u, ⟨⟩, rfl⟩ := step_of_micro (i := .loadw) hr (decodePhase_of_eq hp (by decide)) h
  simp

theorem expand_step_control (hr : s.rst = false) (hp : s.phase = Phase.expand) (h : step s = .next t) :
    t.t = s.t + 1 ∧ t.phase = if s.t.toNat = 63 then Phase.loadregs else Phase.expand := by
  obtain ⟨u, ⟨⟩, rfl⟩ := step_of_micro (i := .expand) hr (decodePhase_of_eq hp (by decide)) h
  simp

theorem loadregs_step_control (hr : s.rst = false) (hp : s.phase = Phase.loadregs) (h : step s = .next t) :
    t.t = 0 ∧ t.phase = Phase.round := by
  obtain ⟨u, ⟨⟩, rfl⟩ := step_of_micro (i := .loadregs) hr (decodePhase_of_eq hp (by decide)) h
  simp

theorem round_step_control (hr : s.rst = false) (hp : s.phase = Phase.round) (h : step s = .next t) :
    t.t = s.t + 1 ∧ t.phase = if s.t.toNat = 63 then Phase.accum else Phase.round := by
  obtain ⟨u, ⟨⟩, rfl⟩ := step_of_micro (i := .round) hr (decodePhase_of_eq hp (by decide)) h
  simp

theorem accum_step_control (hr : s.rst = false) (hp : s.phase = Phase.accum) (h : step s = .next t) :
    t.fill = 0 ∧ t.t = s.t ∧ t.phase =
      if s.padp = .pnone then Phase.opened else if s.padp = .pl then Phase.serial else Phase.pad := by
  obtain ⟨u, ⟨⟩, rfl⟩ := step_of_micro (i := .accum) hr (decodePhase_of_eq hp (by decide)) h
  simp [phaseAfterChunk_eq_ite]

theorem serial_step_control (hr : s.rst = false) (hp : s.phase = Phase.serial) (h : step s = .next t) :
    t.phase = Phase.done ∧ t.t = s.t := by
  obtain ⟨u, ⟨⟩, rfl⟩ := step_of_micro (i := .serial) hr (decodePhase_of_eq hp (by decide)) h
  simp

/-- Settles O42: the table's rows one by one. -/
theorem phaseFollowsTheTransitionTable : Obligations.PhaseFollowsTheTransitionTable := by
  unfold Obligations.PhaseFollowsTheTransitionTable
  intro s t h
  refine ⟨fun hr => ?_, fun hs => ?_, fun hs => quiet_step_control hs h, fun b hs hp hlen => absorb_step_control hs hp hlen h,
    fun hs hp => final_step_control hs hp h, fun arg hs hp => rdd_step_control hs hp h, fun e he => ?_,
    fun hr hb => busy_step_frame hr hb h, fun hr => ⟨fun hp => pad_step_control hr hp h,
      fun hp => loadw_step_control hr hp h, fun hp => expand_step_control hr hp h, fun hp => loadregs_step_control hr hp h,
      fun hp => round_step_control hr hp h, fun hp => accum_step_control hr hp h, fun hp => serial_step_control hr hp h⟩⟩
  · cases h.symm.trans (step_of_rst hr)
    simp
  · obtain ⟨u, ⟨⟩, rfl⟩ := step_of_command hs h
    simp
  · rw [step_of_raises he h]
    simp

/-! The phases between which an instruction leads. -/

theorem phaseAfterChunk_eq_serial_iff {p : Padp} : phaseAfterChunk p = Phase.serial ↔ p = .pl := by
  cases p <;> decide

theorem phaseAfterChunk_ne_idle (p : Padp) : phaseAfterChunk p ≠ Phase.idle := by
  cases p <;> decide

theorem phaseAfterChunk_ne_done (p : Padp) : phaseAfterChunk p ≠ Phase.done := by
  cases p <;> decide

/-- An instruction that changes PHASE neither enters IDLE nor, but for SERIAL, DONE; only an ACCUM with PADP = PL enters
SERIAL. -/
theorem Effect.entered (e : Effect s i u) (hne : u.phase ≠ s.phase) :
    u.phase ≠ Phase.idle ∧ (u.phase = Phase.done → i = .serial) ∧ (u.phase = Phase.serial → i = .accum ∧ s.padp = .pl) := by
  cases e with
  | absorb b hp hlen hf => by_cases hlast : s.fill.toNat = 63 <;> simp [State.storeByte, hlast]
  | pad hf => by_cases hlast : s.fill.toNat = 63 <;> simp [State.storeByte, hlast]
  | loadw ht => by_cases hlast : s.t.toNat = 15 <;> simp [hlast]
  | expand lo hi => by_cases hlast : s.t.toNat = 63 <;> simp [hlast]
  | round ht => by_cases hlast : s.t.toNat = 63 <;> simp [hlast]
  | accum =>
    simp only [State.noResponse_phase, State.setPhase_phase, phaseAfterChunk_eq_serial_iff]
    exact ⟨phaseAfterChunk_ne_idle _, fun h => absurd h (phaseAfterChunk_ne_done _), fun h => ⟨trivial, h⟩⟩
  | _ => simp_all

/-- No command but INIT takes effect in IDLE. -/
theorem Effect.leaves_idle (e : Effect s i u) (hc : i.isCommand = true) (hp : s.phase = Phase.idle)
    (hne : u.phase ≠ s.phase) : i = .init := by
  cases e <;> simp_all [Instr.isCommand]

theorem isCommand_of_selection (hs : select s = Instr.selection i) (hp : hostPhase s.phase = true) : i.isCommand = true := by
  by_contra hc
  rw [Instr.selection, if_neg hc, select_micro_iff] at hs
  exact not_hostPhase_of_busy (busy_iff_decodePhase.2 ⟨i, hs.2⟩) hp

/-- Settles O43: an effect's phase, and what selects the step. -/
theorem phasesAreEnteredOnlyByTheirOwnSteps : Obligations.PhasesAreEnteredOnlyByTheirOwnSteps := by
  unfold Obligations.PhasesAreEnteredOnlyByTheirOwnSteps
  intro s t h hne
  have hbusy (hb : s.busy = true) : select s = .reset ∨ ∃ i, decodePhase s.phase = .instr i ∧ select s = .micro i := by
    obtain ⟨i, hi⟩ := busy_iff_decodePhase.1 hb
    cases hr : s.rst
    · exact .inr ⟨i, hi, select_micro_iff.2 ⟨hr, hi⟩⟩
    · exact .inl (select_reset_iff.2 hr)
  obtain ⟨u, hu, rfl⟩ := step_next_iff.1 h
  rw [State.driveHost_phase] at hne ⊢
  cases blockStep_effect hu with
  | reset hs e => exact ⟨fun hp => absurd (e ▸ hp.symm) hne, fun _ => hs, by simp [e], by simp [e], hbusy⟩
  | illegalWord _ e => simp [e] at hne
  | wait _ e => simp [e] at hne
  | instr i hs e =>
    obtain ⟨hidle, hdone, hserial⟩ := e.entered hne
    refine ⟨fun hp => ?_, fun hp => absurd hp hidle, fun hp => ?_, fun hp => ?_, hbusy⟩
    · obtain rfl := e.leaves_idle (isCommand_of_selection hs (by rw [hp]; decide)) hp hne
      exact hs
    · obtain rfl := hdone hp
      exact hs
    · obtain ⟨rfl, hpl⟩ := hserial hp
      exact ⟨hs, hpl⟩

/-- Settles O47: SERIAL makes it so, and every other effect that leaves DONE as the phase leaves H and DIGEST alone. -/
theorem doneHoldsTheSerialisedHashState : Obligations.DoneHoldsTheSerialisedHashState := by
  unfold Obligations.DoneHoldsTheSerialisedHashState
  intro s t hs h hp
  obtain ⟨u, hu, rfl⟩ := step_next_iff.1 h
  rw [State.driveHost_phase] at hp
  rw [State.driveHost_digest, State.driveHost_h]
  cases blockStep_effect hu with
  | reset _ e => simp [e] at hp
  | illegalWord _ e => simpa [e] using hs (by simpa [e] using hp)
  | wait _ e => simpa [e] using hs (by simpa [e] using hp)
  | instr i hsel e =>
    by_cases hne : u.phase = s.phase
    · obtain ⟨hh, -, -, -, hdigest, -⟩ := e.writtenBy
      have hdone : s.phase = Phase.done := hne ▸ hp
      have hcmd := isCommand_of_selection hsel (by rw [hdone]; decide)
      have hdigest' : u.digest = s.digest := by
        by_contra hd
        cases hdigest hd
        simp [Instr.isCommand] at hcmd
      have hh' : u.h = s.h := by
        by_contra hd
        rcases hh hd with rfl | rfl
        · cases e
          simp at hp
        · simp [Instr.isCommand] at hcmd
      rw [hdigest', hh', hs hdone]
    · obtain ⟨-, hserial, -⟩ := e.entered hne
      obtain rfl := hserial hp
      cases e
      simp

end Sys2Proof.Machine
end

section
/-! SUPPORT. The invariant (R39, with the clause of log entry 19): what it says phase by phase, that every effect and the host's
part keep it, and the statements about it. -/

namespace Sys2Proof.Machine

variable {s t u : State} {i : Instr}

/-! The invariant speaks of the control registers alone. -/

theorem Inv.of_sameControl (h : Inv s) (hc : SameControl s t) : Inv t := by
  obtain ⟨hfill, hlen, ht, hphase, hpadp, herr⟩ := hc
  constructor <;> simp only [hfill, hlen, ht, hphase, hpadp, herr]
  exacts [h.phaseNamed, h.errcodeNamed, h.fillBound, h.openPadp, h.padPadp, h.loadwT, h.expandT, h.roundT, h.chunkFill,
    h.tailPadp, h.openFill, h.chunkLen]

/-! What it takes in each phase. -/

theorem Inv.of_idle (hp : s.phase = Phase.idle) (herr : s.errcode.toNat ≤ 3) (hfill : s.fill.toNat ≤ 63) : Inv s := by
  constructor <;> simp [hp, herr, hfill, chunkPhase]

theorem Inv.of_opened (hp : s.phase = Phase.opened) (herr : s.errcode.toNat ≤ 3) (hpadp : s.padp = .pnone)
    (hfill : s.fill.toNat = s.len.toNat % 64) : Inv s := by
  have hbound : s.len.toNat % 64 ≤ 63 := by omega
  constructor <;> simp [hp, herr, hpadp, hbound, hfill, chunkPhase]

theorem Inv.of_pad (hp : s.phase = Phase.pad) (herr : s.errcode.toNat ≤ 3) (hfill : s.fill.toNat ≤ 63)
    (hpadp : s.padp ≠ .pnone) (hlate : s.padp = .pl → 57 ≤ s.fill.toNat) : Inv s := by
  constructor <;> simp [hp, herr, hfill, hpadp, chunkPhase]
  exact hlate

theorem Inv.of_tail (hp : s.phase = Phase.serial ∨ s.phase = Phase.done) (herr : s.errcode.toNat ≤ 3) (hpadp : s.padp = .pl)
    (hfill : s.fill = 0) : Inv s := by
  rcases hp with hp | hp <;> constructor <;> simp [hp, herr, hpadp, hfill, chunkPhase]

/-- What holds throughout a chunk period, whatever its phase. -/
structure ChunkInv (s : State) : Prop where
  errcode : s.errcode.toNat ≤ 3
  padp : s.padp ≠ .p80
  fill : s.fill = 64
  len : s.padp = .pnone → s.len.toNat % 64 = 0

theorem Inv.chunk (h : Inv s) (hp : chunkPhase s.phase = true) : ChunkInv s := by
  obtain ⟨hpadp, hfill⟩ := h.chunkFill hp
  exact ⟨h.errcodeNamed, hpadp, hfill, h.chunkLen hp⟩

/-- The range of T in each phase of a chunk period (R29). -/
abbrev IndexInRange (p : BitVec 4) (t : Nat) : Prop :=
  (p = Phase.loadw → t ≤ 15) ∧ (p = Phase.expand → 16 ≤ t ∧ t ≤ 63) ∧ (p = Phase.round → t ≤ 63)

theorem Inv.of_chunk (hp : chunkPhase s.phase = true) (hc : ChunkInv s) (ht : IndexInRange s.phase s.t.toNat) : Inv s := by
  have notOther : ∀ p : BitVec 4, chunkPhase p = true → p.toNat ≤ 9 ∧ hostPhase p = false ∧ p ≠ Phase.opened ∧
      p ≠ Phase.pad ∧ p ≠ Phase.serial ∧ p ≠ Phase.done := by decide
  obtain ⟨herr, hpadp, hfill, hlen⟩ := hc
  obtain ⟨hloadw, hexpand, hround⟩ := ht
  obtain ⟨hnamed, hhost, hopen, hpad, hserial, hdone⟩ := notOther _ hp
  exact {
    phaseNamed := hnamed
    errcodeNamed := herr
    fillBound := fun h => absurd h (not_or_intro (Bool.eq_false_iff.1 hhost) hpad)
    openPadp := fun h => absurd h hopen
    padPadp := fun h => absurd h hpad
    loadwT := hloadw
    expandT := hexpand
    roundT := hround
    chunkFill := fun _ => ⟨hpadp, hfill⟩
    tailPadp := fun h => absurd h (not_or_intro hserial hdone)
    openFill := fun h => absurd h hopen
    chunkLen := fun _ => hlen }

/-- A micro-operation of a chunk period that stays in it. -/
theorem ChunkInv.of_effect (h : ChunkInv s) (e : Effect s i u) (hi : i.isCommand = false) (hpad : i ≠ .pad)
    (haccum : i ≠ .accum) : ChunkInv u := by
  obtain ⟨hlen, herr, -, hpadp, hfill⟩ := e.micro_frame hi
  obtain ⟨herr', hpadp', hfill', hlen'⟩ := h
  rw [← herr] at herr'
  rw [← hpadp hpad] at hpadp'
  rw [← hpadp hpad, ← hlen] at hlen'
  exact ⟨herr', hpadp', (hfill hpad haccum).trans hfill', hlen'⟩

/-! The effects one by one. -/

theorem Inv.raiseErr (h : Inv s) (e : Err) : Inv (s.raiseErr e) := by
  have herr : (s.raiseErr e).errcode.toNat ≤ 3 := by
    rw [State.raiseErr_errcode]
    split_ifs
    · exact e.code_range.2
    · exact h.errcodeNamed
  exact { h.of_sameControl (t := (s.raiseErr e).setErrcode s.errcode) (by simp [SameControl]) with errcodeNamed := herr }

/-- The 64th byte of a chunk begins its period. -/
theorem Inv.of_full_chunk (hphase : s.phase = Phase.loadw) (ht : s.t = 0) (hc : ChunkInv s) : Inv s :=
  Inv.of_chunk (by rw [hphase]; decide) hc (by rw [hphase, ht]; decide)

/-- The byte write of ABSORB: LEN counts with FILL. -/
theorem Inv.absorb {b : Byte} (h : Inv s) (e : Effect s (.absorb b) u) : Inv u := by
  cases e with
  | absorbProtocol => exact h.raiseErr _
  | absorbLenovf => exact h.raiseErr _
  | absorb _ hp hlen hf =>
    have hfill := h.openFill hp
    have hpadp := h.openPadp hp
    have hcount : (s.len + 1).toNat = s.len.toNat + 1 := by bv_omega
    by_cases hlast : s.fill.toNat = 63
    · have hnotP80 : s.padp ≠ .p80 := by simp [hpadp]
      have hwhole : (s.len + 1).toNat % 64 = 0 := by omega
      exact Inv.of_full_chunk (if_pos hlast) (if_pos hlast)
        ⟨h.errcodeNamed, hnotP80, (count_eq_64_iff s.fill).2 hlast, fun _ => hwhole⟩
    · have hnext : (s.fill + 1).toNat = (s.len + 1).toNat % 64 := by
        rw [count_toNat hf, hcount]
        omega
      exact Inv.of_opened (if_neg hlast) h.errcodeNamed hpadp hnext

/-- PAD takes PADP to PZ, or, from byte 56 on, to PL. -/
theorem padSelect_progress {padp : Padp} {fill : BitVec 7} (len : BitVec 61) (hnone : padp ≠ .pnone)
    (hlate : padp = .pl → 57 ≤ fill.toNat) :
    (padSelect padp fill len).2 = .pz ∨ (padSelect padp fill len).2 = .pl ∧ 56 ≤ fill.toNat := by
  cases padp with
  | pnone => exact absurd rfl hnone
  | p80 => exact .inl (padSelect_p80_padp fill len)
  | pz =>
    rw [padSelect_pz_padp]
    split_ifs with h56
    · exact .inr ⟨rfl, h56.ge⟩
    · exact .inl rfl
  | pl => exact .inr ⟨padSelect_pl_padp fill len, Nat.le_of_succ_le (hlate rfl)⟩

/-- The byte write of PAD: PADP is PL only from byte 56 on. -/
theorem Inv.pad (h : Inv s) (hp : s.phase = Phase.pad) (e : Effect s .pad u) : Inv u := by
  cases e with
  | pad hf =>
    obtain ⟨hnone, hlate⟩ := h.padPadp hp
    have hnext := padSelect_progress s.len hnone hlate
    have hnotNone : (padSelect s.padp s.fill s.len).2 ≠ .pnone := by rcases hnext with hz | ⟨hl, -⟩ <;> simp [*]
    by_cases hlast : s.fill.toNat = 63
    · have hnotP80 : (padSelect s.padp s.fill s.len).2 ≠ .p80 := by rcases hnext with hz | ⟨hl, -⟩ <;> simp [*]
      exact Inv.of_full_chunk (if_pos hlast) (if_pos hlast)
        ⟨h.errcodeNamed, hnotP80, (count_eq_64_iff s.fill).2 hlast, fun hnone' => absurd hnone' hnotNone⟩
    · have hcount : (s.fill + 1).toNat = s.fill.toNat + 1 := count_toNat hf
      have hbound : (s.fill + 1).toNat ≤ 63 := by omega
      have hlate' : (padSelect s.padp s.fill s.len).2 = .pl → 57 ≤ (s.fill + 1).toNat := by
        rcases hnext with hz | ⟨-, hge⟩
        · simp [hz]
        · exact fun _ => hcount ▸ Nat.succ_le_succ hge
      exact Inv.of_pad (if_neg hlast) h.errcodeNamed hbound hnotNone hlate'

theorem Inv.accum (h : Inv s) (hp : s.phase = Phase.accum) (e : Effect s .accum u) : Inv u := by
  obtain ⟨herr, hpadp, -, hlen⟩ := h.chunk (by rw [hp]; decide)
  cases e
  cases hc : s.padp with
  | pnone => exact Inv.of_opened rfl herr hc (hlen hc).symm
  | p80 => exact absurd hc hpadp
  | pz => exact Inv.of_pad rfl herr (by simp) (by simp [hc]) (by simp [hc])
  | pl => exact Inv.of_tail (.inl rfl) herr hc rfl

/-- A step inside a chunk period: the frame is `ChunkInv`'s, and T stays in the range of the next phase. -/
theorem Inv.within_chunk (h : Inv s) (hp : chunkPhase s.phase = true) (hu : exec i s = .next u) (hi : i.isCommand = false)
    (hpad : i ≠ .pad) (haccum : i ≠ .accum) (hp' : chunkPhase u.phase = true) (ht : IndexInRange u.phase u.t.toNat) : Inv u :=
  Inv.of_chunk hp' ((h.chunk hp).of_effect (exec_effect hu) hi hpad haccum) ht

/-- The micro-operations that count T: it stays in the range of its phase, or reaches that of the next one. -/
theorem Inv.counted {p q : BitVec 4} {lo hi : Nat} (hc : CountsThrough i p q lo hi) (h : Inv s) (hp : s.phase = p)
    (hchunk : chunkPhase p = true ∧ chunkPhase q = true) (ht : lo ≤ s.t.toNat ∧ s.t.toNat < hi)
    (hu : exec i s = .next u) (hi' : i.isCommand = false ∧ i ≠ .pad ∧ i ≠ .accum)
    (hrange : ∀ k, lo ≤ k → k < hi → IndexInRange p k) (hrange' : IndexInRange q hi) : Inv u := by
  obtain ⟨v, hv, hindex, hphase, -⟩ := hc s ht.1 ht.2
  cases hu.symm.trans hv
  obtain ⟨hcmd, hpad, haccum⟩ := hi'
  refine h.within_chunk (hp ▸ hchunk.1) hu hcmd hpad haccum ?_ ?_ <;> rw [hphase] <;> split_ifs with hlast
  · exact hchunk.2
  · exact hchunk.1
  · rwa [hindex, hlast]
  · exact hrange _ (by omega) (by omega)

theorem Inv.loadw (h : Inv s) (hp : s.phase = Phase.loadw) (hu : exec .loadw s = .next u) : Inv u :=
  h.counted loadw_countsThrough hp (by decide) ⟨Nat.zero_le _, Nat.lt_succ_of_le (h.loadwT hp)⟩ hu (by decide)
    (fun k _ hk => by simpa [IndexInRange] using Nat.le_of_lt_succ hk) (by decide)

theorem Inv.expand (h : Inv s) (hp : s.phase = Phase.expand) (hu : exec .expand s = .next u) : Inv u :=
  h.counted expand_countsThrough hp (by decide) ((h.expandT hp).imp_right Nat.lt_succ_of_le) hu (by decide)
    (fun k hk hk' => by simpa [IndexInRange] using ⟨hk, Nat.le_of_lt_succ hk'⟩) (by decide)

theorem Inv.round (h : Inv s) (hp : s.phase = Phase.round) (hu : exec .round s = .next u) : Inv u :=
  h.counted round_countsThrough hp (by decide) ⟨Nat.zero_le _, Nat.lt_succ_of_le (h.roundT hp)⟩ hu (by decide)
    (fun k _ hk => by simpa [IndexInRange] using Nat.le_of_lt_succ hk) (by decide)

theorem Inv.loadregs (h : Inv s) (hp : s.phase = Phase.loadregs) (hu : exec .loadregs s = .next u) : Inv u := by
  refine h.within_chunk (by rw [hp]; decide) hu rfl (by decide) (by decide) ?_ ?_ <;> cases hu
  · show chunkPhase Phase.round = true
    decide
  · show IndexInRange Phase.round 0
    decide

theorem Inv.serial (h : Inv s) (hp : s.phase = Phase.serial) (e : Effect s .serial u) : Inv u := by
  obtain ⟨hpadp, hfill⟩ := h.tailPadp (.inl hp)
  cases e
  exact Inv.of_tail (.inr (by simp)) (by simpa using h.errcodeNamed) (by simpa using hpadp) (by simpa using hfill)

theorem Inv.final (h : Inv s) (e : Effect s .final u) : Inv u := by
  cases e with
  | final hp =>
    exact Inv.of_pad (by simp) (by simpa using h.errcodeNamed)
      (by simpa using h.fillBound (.inl (by rw [hp]; decide))) (by simp) (by simp)
  | finalProtocol => exact h.raiseErr _

theorem Inv.rdd {arg : Byte} (h : Inv s) (e : Effect s (.rdd arg) u) : Inv u := by
  cases e with
  | rdd => exact h.of_sameControl (by simp [SameControl])
  | rddProtocol => exact h.raiseErr _

theorem Inv.noResponse (h : Inv s) : Inv s.noResponse := h.of_sameControl (by simp [SameControl])

theorem Inv.openMessage (s : State) : Inv s.openMessage.noResponse :=
  Inv.of_opened rfl (by simp) rfl (by simp)

theorem Inv.resetStep (s : State) : Inv s.resetStep := Inv.of_idle rfl (by simp) (by simp)

theorem Inv.blockStep (h : Inv s) (hu : blockStep s = .next u) : Inv u := by
  cases blockStep_case hu with
  | reset _ e => exact e ▸ Inv.resetStep s
  | pad _ hp _ e => exact h.pad hp (exec_effect e)
  | loadw _ hp _ e => exact h.loadw hp e
  | expand _ hp _ e => exact h.expand hp e
  | loadregs _ hp _ e => exact h.loadregs hp e
  | round _ hp _ e => exact h.round hp e
  | accum _ hp _ e => exact h.accum hp (exec_effect e)
  | serial _ hp _ e => exact h.serial hp (exec_effect e)
  | nop _ _ _ e =>
    cases e
    exact h.noResponse
  | init _ _ _ e =>
    cases e
    exact Inv.openMessage s
  | absorb _ _ b _ e => exact h.absorb (exec_effect e)
  | final _ _ _ e => exact h.final (exec_effect e)
  | rdd _ _ arg _ _ e => exact h.rdd (exec_effect e)
  | illegalWord _ _ _ e => exact e ▸ h.raiseErr .illegal
  | wait _ _ _ e => exact e ▸ h.noResponse

/-- Every step keeps the invariant. -/
theorem Inv.step (h : Inv s) (hs : step s = .next t) : Inv t := by
  obtain ⟨u, hu, rfl⟩ := step_next_iff.1 hs
  exact (h.blockStep hu).of_sameControl (u.driveHost_sameControl _)

/-- Settles O46: the effects keep it one by one, and the host's part writes no control register. -/
theorem everyStepKeepsTheInvariant : Obligations.EveryStepKeepsTheInvariant := by
  unfold Obligations.EveryStepKeepsTheInvariant
  exact fun _ _ => Inv.step

/-- Settles O45: IDLE asks only for FILL and ERRCODE in their ranges. -/
theorem resetMeetsTheInvariant : Obligations.ResetMeetsTheInvariant := by
  unfold Obligations.ResetMeetsTheInvariant
  exact fun script => Inv.of_idle rfl (by simp [State.reset]) (by simp [State.reset])

/-! A state of the invariant goes on. -/

/-- T and FILL are in the range that the micro-operation due needs. -/
theorem Inv.micro_goes_on (h : Inv s) (hd : decodePhase s.phase = .instr i) : ∃ u, exec i s = .next u := by
  rcases decodePhase_instr_iff.1 hd with ⟨hp, rfl⟩ | ⟨hp, rfl⟩ | ⟨hp, rfl⟩ | ⟨hp, rfl⟩ | ⟨hp, rfl⟩ | ⟨hp, rfl⟩ | ⟨hp, rfl⟩
  · obtain ⟨u, hu, -⟩ := execPad_of_le (h.fillBound (.inr hp))
    exact ⟨u, hu⟩
  · exact ⟨_, execLoadw_of_lt (Nat.lt_succ_of_le (h.loadwT hp))⟩
  · obtain ⟨lo, hi⟩ := h.expandT hp
    exact ⟨_, execExpand_of_range lo (Nat.lt_succ_of_le hi)⟩
  · exact ⟨_, rfl⟩
  · exact ⟨_, execRound_of_lt (Nat.lt_succ_of_le (h.roundT hp))⟩
  · exact ⟨_, rfl⟩
  · exact ⟨_, rfl⟩

/-- An accepted command always goes on; ABSORB needs FILL in range. -/
theorem Inv.command_goes_on {w : BitVec 16} (h : Inv s) (hp : hostPhase s.phase = true) (hd : decodeCmd w = .instr i) :
    ∃ u, exec i s = .next u := by
  rcases decodeCmd_instr hd with rfl | rfl | rfl | rfl | ⟨rfl, -⟩
  · exact ⟨_, rfl⟩
  · exact ⟨_, rfl⟩
  · by_cases hopen : s.phase = Phase.opened
    · rcases absorb_of_opened (argField w) hopen (h.fillBound (.inl hp)) with ⟨u, hu, -⟩ | ⟨-, u, hu, -⟩ <;> exact ⟨u, hu⟩
    · obtain ⟨u, hu, -⟩ := absorb_raises_protocol (argField w) hopen
      exact ⟨u, hu⟩
  · by_cases hopen : s.phase = Phase.opened
    · exact ⟨_, final_of_opened hopen⟩
    · exact ⟨_, if_pos hopen⟩
  · by_cases hdone : s.phase = Phase.done
    · exact ⟨_, rdd_of_done _ hdone⟩
    · exact ⟨_, if_pos hdone⟩

theorem Inv.goes_on (h : Inv s) : ∃ t, Machine.step s = .next t := by
  suffices hu : ∃ u, Machine.blockStep s = .next u by
    obtain ⟨u, hu⟩ := hu
    exact ⟨_, step_next_iff.2 ⟨u, hu, rfl⟩⟩
  rcases select_cases s with ⟨-, e⟩ | ⟨hr, i, hd, -⟩ | ⟨hr, hd, ⟨-, i, hc, e⟩ | ⟨-, -, e⟩ | ⟨-, e⟩⟩ | ⟨-, hd, -⟩
  · exact ⟨s.resetStep, by rw [Machine.blockStep, e]⟩
  · rw [blockStep_of_micro hr hd]
    exact h.micro_goes_on hd
  · rw [blockStep_of_command e]
    exact h.command_goes_on (decodePhase_host_iff.1 hd) hc
  · exact ⟨s.illegalWord, by rw [Machine.blockStep, e]⟩
  · exact ⟨s.waitStep, by rw [Machine.blockStep, e]⟩
  · have hreserved := decodePhase_reserved_iff.1 hd
    have hnamed := h.phaseNamed
    omega

/-- Settles O49: PHASE is no reserved code, and T and FILL are in the ranges the instructions need. -/
theorem invariantStatesAlwaysStep : Obligations.InvariantStatesAlwaysStep := by
  unfold Obligations.InvariantStatesAlwaysStep
  exact fun _ => Inv.goes_on

/-- Every reachable state meets the invariant. -/
theorem Reachable.inv (h : Reachable s) : Inv s := by
  induction h with
  | start script => exact resetMeetsTheInvariant script
  | next _ hs ih => exact ih.step hs

/-- Settles O48: by induction over the run, and O49. -/
theorem reachableStatesMeetTheInvariant : Obligations.ReachableStatesMeetTheInvariant := by
  unfold Obligations.ReachableStatesMeetTheInvariant
  exact fun s h => ⟨h.inv, h.inv.goes_on⟩

end Sys2Proof.Machine
end

section
/-! SUPPORT. Busy periods end (R276, R277): what is left of a chunk period from any of its phases, what is left of the final
period, and the statement about them. -/

namespace Sys2Proof.Machine

variable {P Q : State → Prop} {s : State} {c : Padp}

/-- Some run of at most N steps goes on, and ends in a state of `P`. -/
def RunsWithin (N : Nat) (P : State → Prop) (s : State) : Prop := ∃ k, k ≤ N ∧ RunsTo k P s

theorem RunsTo.within {k N : Nat} (h : RunsTo k P s) (hk : k ≤ N) : RunsWithin N P s := ⟨k, hk, h⟩

theorem RunsWithin.trans {M N : Nat} (h : RunsWithin M P s) (next : ∀ t, P t → RunsWithin N Q t) :
    RunsWithin (M + N) Q s := by
  obtain ⟨k, hk, t, run, ht⟩ := h
  obtain ⟨l, hl, ht'⟩ := next t ht
  exact ⟨k + l, Nat.add_le_add hk hl, RunsTo.trans ⟨t, run, rfl⟩ fun _ e => e ▸ ht'⟩

/-! The rest of a chunk period, from its last phase back to its first. -/

theorem CountsThrough.of_le {i : Instr} {p q : BitVec 4} {lo lo' hi : Nat} (h : CountsThrough i p q lo hi) (hle : lo ≤ lo') :
    CountsThrough i p q lo' hi := fun s hlo => h s (hle.trans hlo)

/-- From the middle of a counted phase: one step for each index left. -/
theorem InPeriod.counts_rest {i : Instr} {p q : BitVec 4} {lo hi k : Nat} (hp : decodePhase p = .instr i)
    (hc : CountsThrough i p q lo hi) (hlo : lo ≤ k) (hk : k < hi) (h : InPeriod c p k s) :
    RunsTo (hi - k) (InPeriod c q hi) s := by
  obtain ⟨n, rfl⟩ := Nat.exists_eq_add_of_lt hk
  rw [show k + n + 1 - k = n + 1 by omega]
  exact h.counted (Nat.succ_pos n) hp (hc.of_le hlo)

theorem InPeriod.round_rest {k : Nat} (hk : k < 64) (h : InPeriod c Phase.round k s) : RunsWithin (64 + 1) (PeriodEnd c) s :=
  have counted := h.counts_rest (by decide) round_countsThrough (Nat.zero_le k) hk
  (counted.within (by omega)).trans fun _ ht => ht.accum.within le_rfl

theorem InPeriod.loadregs_rest {k : Nat} (h : InPeriod c Phase.loadregs k s) : RunsWithin (1 + 65) (PeriodEnd c) s :=
  (h.loadregs.within le_rfl).trans fun _ ht => ht.round_rest (by decide)

theorem InPeriod.expand_rest {k : Nat} (hlo : 16 ≤ k) (hk : k < 64) (h : InPeriod c Phase.expand k s) :
    RunsWithin (48 + 66) (PeriodEnd c) s :=
  have counted := h.counts_rest (by decide) expand_countsThrough hlo hk
  (counted.within (by omega)).trans fun _ ht => ht.loadregs_rest

theorem InPeriod.loadw_rest {k : Nat} (hk : k < 16) (h : InPeriod c Phase.loadw k s) : RunsWithin (16 + 114) (PeriodEnd c) s :=
  have counted := h.counts_rest (by decide) loadw_countsThrough (Nat.zero_le k) hk
  (counted.within (by omega)).trans fun _ ht => ht.expand_rest le_rfl (by decide)

theorem RunsWithin.of_le {M N : Nat} (h : RunsWithin M P s) (hle : M ≤ N) : RunsWithin N P s := by
  obtain ⟨k, hk, run⟩ := h
  exact ⟨k, hk.trans hle, run⟩

/-- R276 (1) from the middle of a chunk period. -/
theorem Inv.period_rest (h : Inv s) (hn : NoReset s) (hp : chunkPhase s.phase = true) :
    RunsWithin 130 (PeriodEnd s.padp) s := by
  have inPeriod {p : BitVec 4} (hp : s.phase = p) : InPeriod s.padp p s.t.toNat s := ⟨hn, hp, rfl, rfl⟩
  have phases : ∀ p : BitVec 4, chunkPhase p = true → p = Phase.loadw ∨ p = Phase.expand ∨ p = Phase.loadregs ∨
      p = Phase.round ∨ p = Phase.accum := by decide
  rcases phases s.phase hp with hp | hp | hp | hp | hp
  · exact (inPeriod hp).loadw_rest (Nat.lt_succ_of_le (h.loadwT hp))
  · obtain ⟨lo, hi⟩ := h.expandT hp
    exact ((inPeriod hp).expand_rest lo (Nat.lt_succ_of_le hi)).of_le (by decide)
  · exact ((inPeriod hp).loadregs_rest).of_le (by decide)
  · exact ((inPeriod hp).round_rest (Nat.lt_succ_of_le (h.roundT hp))).of_le (by decide)
  · exact (inPeriod hp).accum.within (by decide)

/-! The rest of a busy period. -/

/-- The block is not busy: the host steps. -/
def NotBusy (s : State) : Prop := s.busy = false

theorem notBusy_of_done (h : s.phase = Phase.done) : NotBusy s := by
  simp [NotBusy, State.busy, h]

theorem Padding.due_within {n : Nat} (hn : n ≤ 63) (h : Padding LengthDue n s) : RunsWithin 195 NotBusy s :=
  ((h.due_runsTo_done hn).mono fun _ => notBusy_of_done).within (by omega)

theorem Padding.deferred_within {n : Nat} (hn : n ≤ 63) (h : Padding LengthDeferred n s) : RunsWithin 333 NotBusy s := by
  have hge : 56 ≤ n := h.progress.1
  exact ((h.deferred_runsTo_due hn).within (N := 138) (by omega)).trans fun _ ht => ht.due_within (by decide)

/-- In PAD the length field is due in the chunk at hand, or in the next one. -/
theorem Inv.pad_within (h : Inv s) (hn : NoReset s) (hp : s.phase = Phase.pad) : RunsWithin 333 NotBusy s := by
  have hfill := h.fillBound (.inr hp)
  obtain ⟨hnone, hlate⟩ := h.padPadp hp
  by_cases hdue : LengthDue s.padp s.fill.toNat
  · exact (Padding.due_within hfill ⟨hn, hp, rfl, hdue⟩).of_le (by decide)
  · have hdeferred : LengthDeferred s.padp s.fill.toNat := by
      cases hpadp : s.padp with
      | pnone => exact absurd hpadp hnone
      | p80 => simp [LengthDue, LengthDeferred, hpadp] at hdue ⊢; omega
      | pz => simp [LengthDue, LengthDeferred, hpadp] at hdue ⊢; omega
      | pl =>
        have hge := hlate hpadp
        simp [LengthDue, hpadp] at hdue
        omega
    exact Padding.deferred_within hfill ⟨hn, hp, rfl, hdeferred⟩

/-- After a chunk period: the host's turn, one SERIAL, or a chunk of padding that ends with the length field. -/
theorem PeriodEnd.within (h : PeriodEnd c s) (hc : c ≠ .p80) : RunsWithin 195 NotBusy s := by
  cases c with
  | pnone =>
    have hopen : NotBusy s := by simp [NotBusy, State.busy, h.phase, phaseAfterChunk]
    exact (RunsTo.zero hopen).within (by decide)
  | p80 => exact absurd rfl hc
  | pz =>
    have hfill : s.fill.toNat = 0 := by simp [h.fill]
    exact Padding.due_within (Nat.zero_le 63) ⟨h.noReset, h.phase, hfill, by simp [LengthDue, h.padp]⟩
  | pl => exact (h.serial.mono fun _ => notBusy_of_done).within (by decide)

/-- Settles O50: PAD leads to a chunk period, a chunk period to the host, to SERIAL, or to one more chunk of padding. -/
theorem busyPeriodsEndWithin333Steps : Obligations.BusyPeriodsEndWithin333Steps := by
  unfold Obligations.BusyPeriodsEndWithin333Steps
  intro s h hb hn
  suffices hrun : RunsWithin 333 NotBusy s by
    obtain ⟨k, hk, t, run, ht⟩ := hrun
    exact ⟨k, t, hk, run, ht⟩
  have phases : ∀ p : BitVec 4, 2 ≤ p ∧ p ≤ 8 → p = Phase.pad ∨ chunkPhase p = true ∨ p = Phase.serial := by decide
  rcases phases s.phase (by simpa [State.busy] using hb) with hp | hp | hp
  · exact h.pad_within hn hp
  · exact ((h.period_rest hn hp).trans fun t ht => ht.within (h.chunkFill hp).1).of_le (by decide)
  · have hend : PeriodEnd .pl s := ⟨hn, hp, (h.tailPadp (.inl hp)).2, (h.tailPadp (.inl hp)).1⟩
    exact (hend.within (by decide)).of_le (by decide)

end Sys2Proof.Machine
end

section
/-! SUPPORT. What no rule can read again before writing it decides nothing (R40 to R42): the part of `SameVisible` that the
block's step keeps, effect by effect, the part that the host's step keeps, and the statements about them. -/

namespace Sys2Proof.Machine

variable {s t u v : State} {i : Instr}

/-- Two outcomes that stop for the same reason, or go on to related states. -/
inductive OutcomesAgree (R : State → State → Prop) : Outcome → Outcome → Prop
  | next {u v : State} (h : R u v) : OutcomesAgree R (.next u) (.next v)
  | fault (f : Fault) : OutcomesAgree R (.fault f) (.fault f)
  | refused (r : Refusal) : OutcomesAgree R (.refused r) (.refused r)

/-- The clauses of `SameVisible` about control registers, with no response in either state. -/
structure SameRegisters (s t : State) : Prop where
  phase : s.phase = t.phase
  errcode : s.errcode = t.errcode
  padp : s.padp = t.padp
  fill : s.fill = t.fill
  len : s.len = t.len
  index : s.t = t.t
  silent : s.rspValid = false ∧ t.rspValid = false

/-- The clauses of `SameVisible` about the block: registers, response, and the array elements still readable. -/
structure SameReadable (s t : State) : Prop where
  phase : s.phase = t.phase
  errcode : s.errcode = t.errcode
  padp : s.padp = t.padp
  fill : s.fill = t.fill
  len : s.len = t.len
  index : s.t = t.t
  rspValid : s.rspValid = t.rspValid
  rsp : s.rspValid = true → s.rsp = t.rsp
  h : s.phase ≠ Phase.idle → s.h = t.h
  blkBelow : s.phase = Phase.opened ∨ s.phase = Phase.pad →
    ∀ (j : Nat) (hj : j < 64), j < s.fill.toNat → s.blk[j] = t.blk[j]
  blk : s.phase = Phase.loadw → s.blk = t.blk
  wBelow : s.phase = Phase.loadw ∨ s.phase = Phase.expand →
    ∀ (j : Nat) (hj : j < 64), j < s.t.toNat → s.w[j] = t.w[j]
  w : s.phase = Phase.loadregs ∨ s.phase = Phase.round → s.w = t.w
  a : s.phase = Phase.round ∨ s.phase = Phase.accum → s.a = t.a
  digest : s.phase = Phase.done → s.digest = t.digest

theorem SameVisible.readable (h : SameVisible s t) : SameReadable s t :=
  { h with }

/-! What is still readable in each phase. -/

theorem SameRegisters.readable (r : SameRegisters s t) (h : s.phase ≠ Phase.idle → s.h = t.h)
    (blkBelow : s.phase = Phase.opened ∨ s.phase = Phase.pad →
      ∀ (j : Nat) (hj : j < 64), j < s.fill.toNat → s.blk[j] = t.blk[j])
    (blk : s.phase = Phase.loadw → s.blk = t.blk)
    (wBelow : s.phase = Phase.loadw ∨ s.phase = Phase.expand →
      ∀ (j : Nat) (hj : j < 64), j < s.t.toNat → s.w[j] = t.w[j])
    (w : s.phase = Phase.loadregs ∨ s.phase = Phase.round → s.w = t.w)
    (a : s.phase = Phase.round ∨ s.phase = Phase.accum → s.a = t.a)
    (digest : s.phase = Phase.done → s.digest = t.digest) : SameReadable s t :=
  { r with
    h := h, blkBelow := blkBelow, blk := blk, wBelow := wBelow, w := w, a := a, digest := digest
    rspValid := r.silent.1.trans r.silent.2.symm
    rsp := fun hv => absurd (hv.symm.trans r.silent.1) (by decide) }

theorem SameRegisters.idle (r : SameRegisters s t) (hp : s.phase = Phase.idle) : SameReadable s t := by
  apply r.readable <;> simp [hp]

theorem SameRegisters.filling (r : SameRegisters s t) (hp : s.phase = Phase.opened ∨ s.phase = Phase.pad) (hh : s.h = t.h)
    (hblk : ∀ (j : Nat) (hj : j < 64), j < s.fill.toNat → s.blk[j] = t.blk[j]) : SameReadable s t := by
  apply r.readable (fun _ => hh) (fun _ => hblk) <;> rcases hp with hp | hp <;> simp [hp]

theorem SameRegisters.loadw (r : SameRegisters s t) (hp : s.phase = Phase.loadw) (hh : s.h = t.h) (hblk : s.blk = t.blk)
    (hw : ∀ (j : Nat) (hj : j < 64), j < s.t.toNat → s.w[j] = t.w[j]) : SameReadable s t := by
  apply r.readable (fun _ => hh) (blk := fun _ => hblk) (wBelow := fun _ => hw) <;> simp [hp]

theorem SameRegisters.expand (r : SameRegisters s t) (hp : s.phase = Phase.expand) (hh : s.h = t.h)
    (hw : ∀ (j : Nat) (hj : j < 64), j < s.t.toNat → s.w[j] = t.w[j]) : SameReadable s t := by
  apply r.readable (fun _ => hh) (wBelow := fun _ => hw) <;> simp [hp]

theorem SameRegisters.loadregs (r : SameRegisters s t) (hp : s.phase = Phase.loadregs) (hh : s.h = t.h) (hw : s.w = t.w) :
    SameReadable s t := by
  apply r.readable (fun _ => hh) (w := fun _ => hw) <;> simp [hp]

theorem SameRegisters.round (r : SameRegisters s t) (hp : s.phase = Phase.round) (hh : s.h = t.h) (hw : s.w = t.w)
    (ha : s.a = t.a) : SameReadable s t := by
  apply r.readable (fun _ => hh) (w := fun _ => hw) (a := fun _ => ha) <;> simp [hp]

theorem SameRegisters.accum (r : SameRegisters s t) (hp : s.phase = Phase.accum) (hh : s.h = t.h) (ha : s.a = t.a) :
    SameReadable s t := by
  apply r.readable (fun _ => hh) (a := fun _ => ha) <;> simp [hp]

theorem SameRegisters.serial (r : SameRegisters s t) (hp : s.phase = Phase.serial) (hh : s.h = t.h) : SameReadable s t := by
  apply r.readable (fun _ => hh) <;> simp [hp]

theorem SameRegisters.done (r : SameRegisters s t) (hp : s.phase = Phase.done) (hh : s.h = t.h) (hdigest : s.digest = t.digest) :
    SameReadable s t := by
  apply r.readable (fun _ => hh) (digest := fun _ => hdigest) <;> simp [hp]

/-! The effects one by one. -/

theorem SameReadable.noResponse (h : SameReadable s t) : SameReadable s.noResponse t.noResponse :=
  { h with rspValid := rfl, rsp := fun hv => absurd hv Bool.false_ne_true }

theorem SameReadable.raiseErr (h : SameReadable s t) (e : Err) : SameReadable (s.raiseErr e) (t.raiseErr e) := by
  unfold State.raiseErr
  rw [← h.errcode]
  split_ifs
  · exact SameReadable.noResponse { h with errcode := rfl }
  · exact h.noResponse

/-- Two arrays that agree below an index agree below the next one, when both take the same element there. -/
theorem getElem_set_agree {α : Type} {n k : Nat} {a b : Vector α n} {x y : α} (hk : k < n) (hxy : x = y)
    (h : ∀ (j : Nat) (hj : j < n), j < k → a[j] = b[j]) :
    ∀ (j : Nat) (hj : j < n), j < k + 1 → (a.set k x hk)[j] = (b.set k y hk)[j] := by
  intro j hj hlt
  rw [Vector.getElem_set, Vector.getElem_set]
  split_ifs with hjk
  · exact hxy
  · exact h j hj (by omega)

theorem vector_eq_of_below {α : Type} {n k : Nat} {a b : Vector α n} (hk : n ≤ k)
    (h : ∀ (j : Nat) (hj : j < n), j < k → a[j] = b[j]) : a = b :=
  Vector.ext fun j hj => h j hj (hj.trans_le hk)

/-- The byte write, with the same byte and the same registers before it: below FILL the chunks agree, and a full chunk is read
whole. -/
theorem SameVisible.storeByte (h : SameVisible s t) (hp : s.phase = Phase.opened ∨ s.phase = Phase.pad) {stay : BitVec 4}
    (hstay : stay = Phase.opened ∨ stay = Phase.pad) (v : Byte) {len : BitVec 61} {padp : Padp} (hf : s.fill.toNat < 64)
    (hf' : t.fill.toNat < 64) :
    SameReadable (((s.storeByte stay v hf).setLen len).setPadp padp).noResponse
      (((t.storeByte stay v hf').setLen len).setPadp padp).noResponse := by
  have hh : s.h = t.h := h.h (by rcases hp with hp | hp <;> rw [hp] <;> decide)
  have hregs : SameRegisters (((s.storeByte stay v hf).setLen len).setPadp padp).noResponse
      (((t.storeByte stay v hf').setLen len).setPadp padp).noResponse := by
    constructor <;> simp [State.storeByte, h.fill, h.errcode, h.index]
  have hblk : ∀ (j : Nat) (hj : j < 64), j < s.fill.toNat + 1 →
      (s.blk.set s.fill.toNat v hf)[j] = (t.blk.set t.fill.toNat v hf')[j] := by
    simp only [← h.fill]
    exact getElem_set_agree hf rfl (h.blkBelow hp)
  by_cases hlast : s.fill.toNat = 63
  · have hwhole := vector_eq_of_below (by omega) hblk
    apply hregs.loadw <;> simp [State.storeByte, hlast, hh]
    simpa [hlast] using hwhole
  · have hblk' : ∀ (j : Nat) (hj : j < 64), j < (s.fill + 1).toNat →
        (s.blk.set s.fill.toNat v hf)[j] = (t.blk.set t.fill.toNat v hf')[j] := by rwa [count_toNat hf]
    refine hregs.filling ?_ ?_ hblk'
    · simpa [State.storeByte, hlast] using hstay
    · simpa [State.storeByte] using hh

theorem exec_pad_of_lt (hf : s.fill.toNat < 64) : exec .pad s = .next
    ((((s.storeByte Phase.pad (padSelect s.padp s.fill s.len).1 hf).setLen s.len).setPadp
      (padSelect s.padp s.fill s.len).2).noResponse) :=
  (s.noResponse.setPadp (padSelect s.padp s.fill s.len).2).putByte_eq_storeByte _ _ hf

theorem exec_absorb_of_lt {b : Byte} (hp : s.phase = Phase.opened) (hlen : s.len.toNat ≠ 2 ^ 61 - 1) (hf : s.fill.toNat < 64) :
    exec (.absorb b) s = .next
      ((((s.storeByte Phase.opened b hf).setLen (s.len + 1)).setPadp s.padp).noResponse) :=
  (absorb_eq_putByte b hp hlen).trans ((s.noResponse.setLen (s.len + 1)).putByte_eq_storeByte _ _ hf)

/-- Two states' outcomes of one instruction. -/
def ExecAgrees (i : Instr) (s t : State) : Prop := OutcomesAgree SameReadable (exec i s) (exec i t)

theorem SameVisible.pad (h : SameVisible s t) (hp : s.phase = Phase.pad) : ExecAgrees .pad s t := by
  unfold ExecAgrees
  by_cases hf : s.fill.toNat < 64
  · have hf' : t.fill.toNat < 64 := h.fill ▸ hf
    rw [exec_pad_of_lt hf, exec_pad_of_lt hf', ← h.padp, ← h.fill, ← h.len]
    exact .next (h.storeByte (.inr hp) (.inr rfl) _ hf hf')
  · obtain ⟨-, -, -, hs, -⟩ := indicesOutsideTheArraysStop s
    obtain ⟨-, -, -, ht, -⟩ := indicesOutsideTheArraysStop t
    rw [hs (Nat.le_of_not_lt hf), ht (h.fill ▸ Nat.le_of_not_lt hf)]
    exact .fault _

theorem SameVisible.absorb (h : SameVisible s t) (b : Byte) : ExecAgrees (.absorb b) s t := by
  unfold ExecAgrees
  by_cases hp : s.phase = Phase.opened
  · have hp' : t.phase = Phase.opened := h.phase ▸ hp
    by_cases hlen : s.len = BitVec.allOnes 61
    · have hs : exec (.absorb b) s = .next (s.raiseErr .lenovf) := (if_neg (not_not_intro hp)).trans (if_pos hlen)
      have ht : exec (.absorb b) t = .next (t.raiseErr .lenovf) := (if_neg (not_not_intro hp')).trans (if_pos (h.len ▸ hlen))
      rw [hs, ht]
      exact .next (h.readable.raiseErr _)
    · have hne : s.len.toNat ≠ 2 ^ 61 - 1 := mt len_eq_allOnes_iff.2 hlen
      by_cases hf : s.fill.toNat < 64
      · have hf' : t.fill.toNat < 64 := h.fill ▸ hf
        rw [exec_absorb_of_lt hp hne hf, exec_absorb_of_lt hp' (h.len ▸ hne) hf', ← h.len, ← h.padp]
        exact .next (h.storeByte (.inl hp) (.inl rfl) b hf hf')
      · obtain ⟨-, -, -, -, hs⟩ := indicesOutsideTheArraysStop s
        obtain ⟨-, -, -, -, ht⟩ := indicesOutsideTheArraysStop t
        have hge := Nat.le_of_not_lt hf
        rw [hs hge hp hne, ht (h.fill ▸ hge) hp' (h.len ▸ hne)]
        exact .fault _
  · have hp' : t.phase ≠ Phase.opened := h.phase ▸ hp
    have hs : exec (.absorb b) s = .next (s.raiseErr .protocol) := if_pos hp
    have ht : exec (.absorb b) t = .next (t.raiseErr .protocol) := if_pos hp'
    rw [hs, ht]
    exact .next (h.readable.raiseErr _)

theorem SameVisible.final (h : SameVisible s t) : ExecAgrees .final s t := by
  unfold ExecAgrees
  by_cases hp : s.phase = Phase.opened
  · have hp' : t.phase = Phase.opened := h.phase ▸ hp
    rw [final_of_opened hp, final_of_opened hp']
    have hregs : SameRegisters ((s.setPadp .p80).setPhase Phase.pad).noResponse
        ((t.setPadp .p80).setPhase Phase.pad).noResponse := by
      constructor <;> simp [h.errcode, h.fill, h.len, h.index]
    exact .next (hregs.filling (.inr rfl) (h.h (by rw [hp]; decide)) (h.blkBelow (.inl hp)))
  · have hs : exec .final s = .next (s.raiseErr .protocol) := if_pos hp
    have ht : exec .final t = .next (t.raiseErr .protocol) := if_pos (h.phase ▸ hp)
    rw [hs, ht]
    exact .next (h.readable.raiseErr _)

theorem SameVisible.rdd (h : SameVisible s t) (arg : Byte) : ExecAgrees (.rdd arg) s t := by
  unfold ExecAgrees
  by_cases hp : s.phase = Phase.done
  · have hp' : t.phase = Phase.done := h.phase ▸ hp
    rw [rdd_of_done arg hp, rdd_of_done arg hp']
    exact .next { h.readable with rspValid := rfl, rsp := fun _ => by simp only [State.respond_rsp, h.digest hp] }
  · have hs : exec (.rdd arg) s = .next (s.raiseErr .protocol) := if_pos hp
    have ht : exec (.rdd arg) t = .next (t.raiseErr .protocol) := if_pos (h.phase ▸ hp)
    rw [hs, ht]
    exact .next (h.readable.raiseErr _)

theorem SameVisible.init (h : SameVisible s t) : ExecAgrees .init s t := by
  have hregs : SameRegisters s.openMessage.noResponse t.openMessage.noResponse := by
    constructor <;> simp [h.index]
  exact .next (hregs.filling (.inl rfl) rfl (fun j _ hj => absurd hj (Nat.not_lt_zero j)))

theorem SameVisible.loadw (h : SameVisible s t) (hp : s.phase = Phase.loadw) : ExecAgrees .loadw s t := by
  unfold ExecAgrees
  have hh : s.h = t.h := h.h (by rw [hp]; decide)
  have hblk := h.blk hp
  by_cases ht : s.t.toNat < 16
  · have ht' : t.t.toNat < 16 := h.index ▸ ht
    have hW : s.t.toNat < 64 := by omega
    have hword : memRead s.blk (4 * s.t.toNat) (by omega) = memRead t.blk (4 * s.t.toNat) (by omega) := by rw [hblk]
    have hw := getElem_set_agree hW hword (h.wBelow (.inl hp))
    rw [← count_toNat hW] at hw
    have es : exec .loadw s = _ := execLoadw_of_lt ht
    have et : exec .loadw t = _ := execLoadw_of_lt ht'
    simp only [es, et, ← h.index, count_eq_16_iff]
    refine .next ?_
    by_cases hlast : s.t.toNat = 15
    · refine SameRegisters.expand ?_ (if_pos hlast) hh hw
      constructor <;> simp [h.errcode, h.padp, h.fill, h.len]
    · refine SameRegisters.loadw ?_ (if_neg hlast) hh hblk hw
      constructor <;> simp [h.errcode, h.padp, h.fill, h.len]
  · obtain ⟨hs, -⟩ := indicesOutsideTheArraysStop s
    obtain ⟨ht', -⟩ := indicesOutsideTheArraysStop t
    rw [hs (Nat.le_of_not_lt ht), ht' (h.index ▸ Nat.le_of_not_lt ht)]
    exact .fault _

theorem SameVisible.expand (h : SameVisible s t) (hp : s.phase = Phase.expand) : ExecAgrees .expand s t := by
  unfold ExecAgrees
  have hh : s.h = t.h := h.h (by rw [hp]; decide)
  by_cases hr : 16 ≤ s.t.toNat ∧ s.t.toNat < 64
  · obtain ⟨lo, hi⟩ := hr
    have hbelow := h.wBelow (.inr hp)
    have hword := scheduleWord_congr lo hi fun k hk => hbelow k (by omega) hk
    have hw := getElem_set_agree hi hword hbelow
    rw [← count_toNat hi] at hw
    have es : exec .expand s = _ := execExpand_of_range lo hi
    have et : exec .expand t = _ := execExpand_of_range (h.index ▸ lo) (h.index ▸ hi)
    simp only [es, et, ← h.index, count_eq_64_iff]
    refine .next ?_
    by_cases hlast : s.t.toNat = 63
    · refine SameRegisters.loadregs ?_ (if_pos hlast) hh (vector_eq_of_below ?_ hw)
      · constructor <;> simp [h.errcode, h.padp, h.fill, h.len]
      · rw [count_toNat hi, hlast]
    · refine SameRegisters.expand ?_ (if_neg hlast) hh hw
      constructor <;> simp [h.errcode, h.padp, h.fill, h.len]
  · have hout : s.t.toNat < 16 ∨ 64 ≤ s.t.toNat := by omega
    obtain ⟨-, hs, -⟩ := indicesOutsideTheArraysStop s
    obtain ⟨-, ht, -⟩ := indicesOutsideTheArraysStop t
    rw [hs hout, ht (h.index ▸ hout)]
    exact .fault _

theorem SameVisible.loadregs (h : SameVisible s t) (hp : s.phase = Phase.loadregs) : ExecAgrees .loadregs s t := by
  have hh : s.h = t.h := h.h (by rw [hp]; decide)
  have hregs : SameRegisters (((s.setA s.h).setT 0).setPhase Phase.round).noResponse
      (((t.setA t.h).setT 0).setPhase Phase.round).noResponse := by
    constructor <;> simp [h.errcode, h.padp, h.fill, h.len]
  exact .next (hregs.round rfl hh (h.w (.inl hp)) hh)

theorem SameVisible.round (h : SameVisible s t) (hp : s.phase = Phase.round) : ExecAgrees .round s t := by
  unfold ExecAgrees
  have hh : s.h = t.h := h.h (by rw [hp]; decide)
  have hw := h.w (.inr hp)
  have ha := h.a (.inl hp)
  by_cases hi : s.t.toNat < 64
  · have es : exec .round s = _ := execRound_of_lt hi
    have et : exec .round t = _ := execRound_of_lt (h.index ▸ hi)
    simp only [es, et, ← h.index, count_eq_64_iff, ← ha, ← hw]
    refine .next ?_
    by_cases hlast : s.t.toNat = 63
    · refine SameRegisters.accum ?_ (if_pos hlast) hh rfl
      constructor <;> simp [h.errcode, h.padp, h.fill, h.len]
    · refine SameRegisters.round ?_ (if_neg hlast) hh hw rfl
      constructor <;> simp [h.errcode, h.padp, h.fill, h.len]
  · obtain ⟨-, -, hs, -⟩ := indicesOutsideTheArraysStop s
    obtain ⟨-, -, ht, -⟩ := indicesOutsideTheArraysStop t
    rw [hs (Nat.le_of_not_lt hi), ht (h.index ▸ Nat.le_of_not_lt hi)]
    exact .fault _

theorem SameVisible.accum (h : SameVisible s t) (hp : s.phase = Phase.accum) : ExecAgrees .accum s t := by
  have hh : accumulate s.h s.a = accumulate t.h t.a := by rw [h.h (by rw [hp]; decide), h.a (.inr hp)]
  have hregs : SameRegisters (((s.setH (accumulate s.h s.a)).setFill 0).setPhase (phaseAfterChunk s.padp)).noResponse
      (((t.setH (accumulate t.h t.a)).setFill 0).setPhase (phaseAfterChunk t.padp)).noResponse := by
    constructor <;> simp [h.errcode, h.padp, h.len, h.index]
  have hempty (j : Nat) (_ : j < 64) (hj : j < (0 : BitVec 7).toNat) : s.blk[j] = t.blk[j] := absurd hj (Nat.not_lt_zero j)
  have hnext : phaseAfterChunk s.padp = Phase.opened ∨ phaseAfterChunk s.padp = Phase.pad ∨
      phaseAfterChunk s.padp = Phase.serial := by cases s.padp <;> decide
  rcases hnext with hp' | hp' | hp'
  · exact .next (hregs.filling (.inl hp') hh hempty)
  · exact .next (hregs.filling (.inr hp') hh hempty)
  · exact .next (hregs.serial hp' hh)

theorem SameVisible.serial (h : SameVisible s t) (hp : s.phase = Phase.serial) : ExecAgrees .serial s t := by
  have hh : s.h = t.h := h.h (by rw [hp]; decide)
  have hregs : SameRegisters ((s.setDigest (serialize s.h)).setPhase Phase.done).noResponse
      ((t.setDigest (serialize t.h)).setPhase Phase.done).noResponse := by
    constructor <;> simp [h.errcode, h.padp, h.fill, h.len, h.index]
  exact .next (hregs.done (by simp) (by simpa using hh) (by simp [hh]))

/-! The block's step. -/

theorem SameVisible.select_eq (h : SameVisible s t) : select s = select t := by
  have hcommand : selectCommand s = selectCommand t := by
    unfold selectCommand
    rw [← h.cmdValid]
    split_ifs with hv
    · rw [h.cmd hv]
    · rfl
  unfold select
  rw [h.rst, h.phase, hcommand]

theorem SameReadable.resetStep (s t : State) : SameReadable s.resetStep t.resetStep :=
  SameRegisters.idle ⟨rfl, rfl, rfl, rfl, rfl, rfl, rfl, rfl⟩ rfl

theorem SameVisible.blockStep (h : SameVisible s t) :
    OutcomesAgree SameReadable (Machine.blockStep s) (Machine.blockStep t) := by
  have hsel := h.select_eq
  rcases select_cases s with ⟨-, e⟩ | ⟨hr, i, hd, -⟩ | ⟨-, -, ⟨-, i, hc, e⟩ | ⟨-, -, e⟩ | ⟨-, e⟩⟩ | ⟨-, -, e⟩
  · rw [Machine.blockStep, Machine.blockStep, ← hsel, e]
    exact .next (.resetStep s t)
  · rw [blockStep_of_micro hr hd, blockStep_of_micro (h.rst ▸ hr) (h.phase ▸ hd)]
    rcases decodePhase_instr_iff.1 hd with ⟨hp, rfl⟩ | ⟨hp, rfl⟩ | ⟨hp, rfl⟩ | ⟨hp, rfl⟩ | ⟨hp, rfl⟩ | ⟨hp, rfl⟩ | ⟨hp, rfl⟩
    · exact h.pad hp
    · exact h.loadw hp
    · exact h.expand hp
    · exact h.loadregs hp
    · exact h.round hp
    · exact h.accum hp
    · exact h.serial hp
  · rw [blockStep_of_command e, blockStep_of_command (hsel ▸ e)]
    rcases decodeCmd_instr hc with rfl | rfl | rfl | rfl | ⟨rfl, -⟩
    · exact .next h.readable.noResponse
    · exact h.init
    · exact h.absorb _
    · exact h.final
    · exact h.rdd _
  · rw [Machine.blockStep, Machine.blockStep, ← hsel, e]
    exact .next (h.readable.raiseErr .illegal)
  · rw [Machine.blockStep, Machine.blockStep, ← hsel, e]
    exact .next h.readable.noResponse
  · rw [Machine.blockStep, Machine.blockStep, ← hsel, e]
    exact .fault .reservedPhase

/-! The host's part of the step. -/

theorem blockStep_sameHost (h : blockStep s = .next u) : SameHost s u := by
  cases blockStep_effect h with
  | reset _ e => simp [SameHost, e]
  | instr i _ e => exact e.sameHost
  | illegalWord _ e => simp [SameHost, e]
  | wait _ e => simp [SameHost, e]

/-- The host's part writes the ports and its own script. -/
theorem State.driveHost_eq (s : State) (held : Bool) : ∃ (rst valid : Bool) (cmd : BitVec 16) (rest : List HostMove) (n : Nat),
    s.driveHost held = { s with rst := rst, cmdValid := valid, cmd := cmd, script := rest, draws := n } := by
  unfold State.driveHost
  split <;> exact ⟨_, _, _, _, _, rfl⟩

theorem SameReadable.driveHost (h : SameReadable u v) (held : Bool) : SameReadable (u.driveHost held) (v.driveHost held) := by
  obtain ⟨_, _, _, _, _, hu⟩ := u.driveHost_eq held
  obtain ⟨_, _, _, _, _, hv⟩ := v.driveHost_eq held
  rw [hu, hv]
  exact { h with }

/-- What the ports carry next depends on the script and on the command held. -/
theorem driveHost_ports {held : Bool} (hscript : u.script = v.script) (hcmd : held = true → u.cmd = v.cmd) :
    (u.driveHost held).rst = (v.driveHost held).rst ∧ (u.driveHost held).cmdValid = (v.driveHost held).cmdValid ∧
      ((u.driveHost held).cmdValid = true → (u.driveHost held).cmd = (v.driveHost held).cmd) ∧
      (u.driveHost held).script = (v.driveHost held).script := by
  unfold State.driveHost
  rw [← hscript]
  split <;> simp_all

theorem SameReadable.visible_driveHost {held : Bool} (h : SameReadable u v) (hscript : u.script = v.script)
    (hcmd : held = true → u.cmd = v.cmd) : SameVisible (u.driveHost held) (v.driveHost held) := by
  obtain ⟨hrst, hvalid, hcmd', hscript'⟩ := driveHost_ports hscript hcmd
  exact { h.driveHost held with rst := hrst, cmdValid := hvalid, cmd := hcmd', script := hscript' }

theorem SameVisible.heldAfter (h : SameVisible s t) : s.heldAfter = t.heldAfter := by
  simp only [State.heldAfter, State.busy, h.phase, h.cmdValid, h.rst]

theorem SameVisible.step (h : SameVisible s t) : OutcomesAgree SameVisible (Machine.step s) (Machine.step t) := by
  have hblock := h.blockStep
  unfold Machine.step
  rw [← h.heldAfter]
  generalize hs : Machine.blockStep s = o, ht : Machine.blockStep t = p at hblock
  cases hblock with
  | fault f => exact .fault f
  | refused r => exact .refused r
  | next huv =>
    obtain ⟨-, -, hcmd, hscript⟩ := blockStep_sameHost hs
    obtain ⟨-, -, hcmd', hscript'⟩ := blockStep_sameHost ht
    refine .next (huv.visible_driveHost ?_ fun hheld => ?_)
    · rw [hscript, hscript', h.script]
    · have hvalid : s.cmdValid = true := by
        simp only [State.heldAfter, Bool.and_eq_true] at hheld
        exact hheld.1.2
      rw [hcmd, hcmd', h.cmd hvalid]

theorem SameVisible.outputs (h : SameVisible s t) : s.outputs = t.outputs := by
  unfold State.outputs State.status State.cmdReady State.busy
  rw [h.phase, h.errcode, ← h.rspValid]
  split_ifs with hv
  · rw [h.rsp hv]
  · rfl

/-- Settles O51: the outputs are among the clauses, and each of the block's effects and the host's part keeps them. -/
theorem unwrittenStateIsNeverObserved : Obligations.UnwrittenStateIsNeverObserved := by
  unfold Obligations.UnwrittenStateIsNeverObserved
  intro s t h
  refine ⟨h.outputs, ?_⟩
  have hstep := h.step
  generalize step s = o, step t = p at hstep
  cases hstep with
  | next huv => exact huv
  | fault f => rfl
  | refused r => rfl

/-! Whole runs. -/

theorem SameVisible.observations (h : SameVisible s t) (n : Nat) : Machine.observations n s = Machine.observations n t := by
  induction n generalizing s t with
  | zero => rfl
  | succ n ih =>
    have hstep := h.step
    unfold Machine.observations
    generalize Machine.step s = o, Machine.step t = p at hstep
    cases hstep with
    | next huv => simp only [huv.outputs, ih huv]
    | fault f => rfl
    | refused r => rfl

/-- Settles O52: two reset steps lead to states that no port can tell apart. -/
theorem resetForgetsEverything : Obligations.ResetForgetsEverything := by
  unfold Obligations.ResetForgetsEverything
  intro s t hs ht hscript n
  cases n with
  | zero => rfl
  | succ n =>
    have huv : SameVisible (s.resetStep.driveHost false) (t.resetStep.driveHost false) :=
      (SameReadable.resetStep s t).visible_driveHost hscript fun h => absurd h Bool.false_ne_true
    simp only [observations, step_of_rst hs, step_of_rst ht, huv.outputs, huv.observations n]

end Sys2Proof.Machine
end

section
/-! SUPPORT. The host's moves for a command (R97, R98, R310): the word each presents, and the statements about the adapter and
about a script's lines. -/

namespace Sys2Proof.Machine

theorem presentMove_absorb {n : Nat} (hn : n ≤ 255) :
    presentMove (.absorb (BitVec.ofNat 8 n)) = .present (BitVec.ofNat 16 (0x2000 + n)) :=
  congrArg HostMove.present (cmdWord_eq_ofNat 0x2 (Nat.lt_succ_of_le hn))

theorem presentMove_rdd {n : Nat} (hn : n ≤ 255) :
    presentMove (.rdd (BitVec.ofNat 8 n)) = .present (BitVec.ofNat 16 (0x4000 + n)) :=
  congrArg HostMove.present (cmdWord_eq_ofNat 0x4 (Nat.lt_succ_of_le hn))

theorem hash_moves {text : List Char} (h : ∀ c ∈ text, literalChar c = true) : (ScriptLine.hash text).moves =
    .ok ((sendCommands (text.map fun c => BitVec.ofNat 8 c.toNat) ++ readCommands).map presentMove) := by
  have habsorb : absorbText text = .ok (text.map fun c => presentMove (.absorb (BitVec.ofNat 8 c.toNat))) :=
    if_pos (List.all_eq_true.2 h)
  simp [ScriptLine.moves, habsorb, sendCommands]

/-- Settles O58: each line's move presents its command's word, and HASH is the lines INIT, ABSORB and FINAL, then RDDALL. -/
theorem scriptLinesStandForTheirWords : Obligations.ScriptLinesStandForTheirWords := by
  unfold Obligations.ScriptLinesStandForTheirWords
  refine ⟨rfl, rfl, rfl, rfl, fun b => ?_, fun i => ?_, fun w => rfl, fun text => hash_moves⟩
  · show (if b ≤ 255 then Except.ok [presentMove (.absorb (BitVec.ofNat 8 b))] else Except.error ScriptError.outOfRange) = _
    split_ifs with hb
    · rw [presentMove_absorb hb]
    · rfl
  · show (if i ≤ 31 then Except.ok [presentMove (.rdd (BitVec.ofNat 8 i))] else Except.error ScriptError.outOfRange) = _
    split_ifs with hi
    · rw [presentMove_rdd (hi.trans (by decide))]
    · rfl

theorem hashEntry_rawBytes_of_le (textToBytes : List Char → List Byte) {m : List Byte} (h : m.length ≤ 2 ^ 61 - 1) :
    hashEntry textToBytes (.rawBytes m) = .ok ((sendCommands m ++ readCommands).map presentMove) :=
  if_neg (Nat.not_lt_of_le h)

theorem hashEntry_rawBytes_of_gt (textToBytes : List Char → List Byte) {m : List Byte} (h : 2 ^ 61 - 1 < m.length) :
    hashEntry textToBytes (.rawBytes m) = .error .messageTooLong :=
  if_pos h

/-- Settles O56: the length decides for bytes, and text is its bytes. -/
theorem adapterRefusesOnlyWhatItMust : Obligations.AdapterRefusesOnlyWhatItMust := by
  unfold Obligations.AdapterRefusesOnlyWhatItMust
  exact fun textToBytes => ⟨rfl, fun _ => hashEntry_rawBytes_of_gt textToBytes, fun _ => hashEntry_rawBytes_of_le textToBytes,
    fun _ => rfl⟩

end Sys2Proof.Machine
end

section
/-! SUPPORT. The commands a host has still to send, NOPs left out, and what a step takes from them (R240, R283, R351). -/

namespace Sys2Proof.Machine

variable {s t u : State} {i : Instr} {P Q : State → Prop} {w : BitVec 16} {ws : List (BitVec 16)}

/-- The word a move of the host presents, for moves that raise no reset. -/
def HostMove.word : HostMove → Option (BitVec 16)
  | .present word => some word
  | .wait | .reset | .resetNow | .presentReset _ => none

/-- The words on the port or still to come. -/
def State.pending (s : State) : List (BitVec 16) := (if s.cmdValid then [s.cmd] else []) ++ s.script.filterMap HostMove.word

/-- Those of them that are no NOP. -/
def State.todo (s : State) : List (BitVec 16) := s.pending.filter fun w => w ≠ 0

/-- The host raises no reset, and has exactly these words, waits and NOPs apart, still to send. -/
structure HostSends (ws : List (BitVec 16)) (s : State) : Prop where
  noReset : NoReset s
  todo : s.todo = ws

/-! What the host's part of a step does to them. -/

/-- The host's part keeps a held command and takes the rest from the script. -/
theorem State.pending_driveHost (s : State) (held : Bool) (h : ∀ m ∈ s.script, m.raisesReset = false) :
    (s.driveHost held).pending = (if held then [s.cmd] else []) ++ s.script.filterMap HostMove.word := by
  unfold State.driveHost
  split <;> simp_all [State.pending, HostMove.raisesReset, HostMove.word, State.freePort, List.filterMap_cons]

theorem State.driveHost_script_tail (s : State) : (s.driveHost false).script = s.script.tail := by
  unfold State.driveHost
  split <;> simp_all [State.freePort]

/-- A step without reset takes the word on the port, unless the block is busy. -/
theorem pending_step (hn : NoReset s) (h : step s = .next t) :
    s.pending = (if s.cmdValid && !s.busy then [s.cmd] else []) ++ t.pending := by
  obtain ⟨u, hu, rfl⟩ := step_next_iff.1 h
  obtain ⟨-, -, hcmd, hscript⟩ := blockStep_sameHost hu
  have hheld : s.heldAfter = (s.busy && s.cmdValid) := by simp [State.heldAfter, hn.1]
  rw [State.pending_driveHost u _ (hscript ▸ hn.2), hscript, hcmd, hheld, State.pending]
  cases s.cmdValid <;> cases s.busy <;> rfl

theorem NoReset.step (hn : NoReset s) (h : step s = .next t) : NoReset t := by
  obtain ⟨u, hu, rfl⟩ := step_next_iff.1 h
  obtain ⟨-, -, -, hscript⟩ := blockStep_sameHost hu
  exact NoReset.driveHost _ (hscript ▸ hn.2)

theorem todo_step (hn : NoReset s) (h : step s = .next t) :
    s.todo = (if s.cmdValid && !s.busy then [s.cmd] else []).filter (fun w => w ≠ 0) ++ t.todo := by
  rw [State.todo, State.todo, pending_step hn h, List.filter_append]

theorem not_busy_of_hostPhase (hp : hostPhase s.phase = true) : s.busy = false :=
  Bool.eq_false_iff.2 fun hb => not_hostPhase_of_busy hb hp

/-- A step that takes no command leaves the commands to send as they were. -/
theorem HostSends.keep (h : HostSends ws s) (hs : Machine.step s = .next t)
    (hnone : s.busy = true ∨ s.cmdValid = false ∨ s.cmd = 0) : HostSends ws t := by
  refine ⟨h.noReset.step hs, ?_⟩
  rw [← h.todo, todo_step h.noReset hs]
  rcases hnone with hb | hv | hc
  · simp [hb]
  · simp [hv]
  · cases s.cmdValid && !s.busy <;> simp [hc]

/-- A step that takes a command takes the first of them. -/
theorem HostSends.take (h : HostSends ws s) (hs : Machine.step s = .next t) (hp : hostPhase s.phase = true)
    (hv : s.cmdValid = true) (hc : s.cmd ≠ 0) : ws = s.cmd :: ws.tail ∧ HostSends ws.tail t := by
  have htodo := todo_step h.noReset hs
  have hb := not_busy_of_hostPhase hp
  simp only [hv, hb, Bool.not_false, Bool.and_self, if_true, List.filter_cons, decide_true, hc, ne_eq, not_false_eq_true,
    List.filter_nil, List.singleton_append] at htodo
  rw [h.todo] at htodo
  exact ⟨by rw [htodo]; rfl, h.noReset.step hs, by rw [htodo]; rfl⟩

/-! Runs while the host sends. -/

/-- A busy block's step, while no reset comes, leaves the commands to send as they were. -/
theorem RunsTo.busy (h : HostSends ws s) (hp : decodePhase s.phase = .instr i) (hu : exec i s = .next u)
    (hP : HostSends ws (u.driveHost s.heldAfter) → P (u.driveHost s.heldAfter)) : RunsTo 1 P s := by
  obtain ⟨-, -, -, hscript⟩ := exec_sameHost hu
  obtain ⟨hs, -⟩ := step_micro h.noReset hp hu hscript
  exact ⟨_, runFor_succ hs, hP (h.keep hs (.inl (busy_iff_decodePhase.2 ⟨i, hp⟩)))⟩

/-- The acceptance of a command other than NOP. -/
theorem RunsTo.accept (h : HostSends ws s) (hp : hostPhase s.phase = true) (hv : s.cmdValid = true)
    (hd : decodeCmd s.cmd = .instr i) (hc : s.cmd ≠ 0) (hu : exec i s = .next u)
    (hP : HostSends ws.tail (u.driveHost false) → P (u.driveHost false)) : RunsTo 1 P s := by
  have hs : step s = .next (u.driveHost false) := by
    obtain ⟨-, hcommand, -⟩ := stepRunsTheDecodedInstruction s h.noReset.1
    rw [hcommand i hp hv hd, hu]
    rfl
  exact ⟨_, runFor_succ hs, hP (h.take hs hp hv hc).2⟩

/-- Some run ends in a state of `P`. -/
def Reaches (P : State → Prop) (s : State) : Prop := ∃ n, RunsTo n P s

theorem RunsTo.reaches {n : Nat} (h : RunsTo n P s) : Reaches P s := ⟨n, h⟩

theorem Reaches.refl (h : P s) : Reaches P s := (RunsTo.zero h).reaches

theorem Reaches.trans (h : Reaches P s) (next : ∀ t, P t → Reaches Q t) : Reaches Q s := by
  obtain ⟨m, t, run, ht⟩ := h
  obtain ⟨n, run'⟩ := next t ht
  exact ⟨m + n, RunsTo.trans ⟨t, run, rfl⟩ fun _ e => e ▸ run'⟩

/-- A wait or a NOP: nothing changes but the ports. -/
theorem step_of_idling (hr : s.rst = false) (hp : hostPhase s.phase = true) (hidle : s.cmdValid = false ∨ s.cmd = 0) :
    step s = .next (s.noResponse.driveHost false) := by
  cases hv : s.cmdValid with
  | false => exact step_of_wait hp hr hv
  | true =>
    have hc : s.cmd = 0 := hidle.resolve_left (by simp [hv])
    obtain ⟨-, hcommand, -⟩ := stepRunsTheDecodedInstruction s hr
    exact hcommand .nop hp hv (by rw [hc]; decide)

/-- A state in which the next command to send is on the port, the block being as it is in `s`. -/
structure Presented (s : State) (w : BitVec 16) (ws : List (BitVec 16)) (t : State) : Prop where
  arrays : SameArrays s t
  control : SameControl s t
  host : HostSends (w :: ws) t
  valid : t.cmdValid = true
  cmd : t.cmd = w

theorem Presented.of_idling (h : Presented (s.noResponse.driveHost false) w ws t) : Presented s w ws t := by
  obtain ⟨hh, ha, hw, hblk, hdigest⟩ := h.arrays
  obtain ⟨hfill, hlen, ht, hphase, hpadp, herr⟩ := h.control
  exact { h with
    arrays := by simp [SameArrays, hh, ha, hw, hblk, hdigest]
    control := by simp [SameControl, hfill, hlen, ht, hphase, hpadp, herr] }

theorem HostSends.cmd_eq (h : HostSends (w :: ws) s) (hv : s.cmdValid = true) (hc : s.cmd ≠ 0) : s.cmd = w := by
  have htodo := h.todo
  simp only [State.todo, State.pending, hv, if_true, List.singleton_append, List.filter_cons, ne_eq, hc, not_false_eq_true,
    decide_true, List.cons.injEq] at htodo
  exact htodo.1

/-- With nothing on the port, or a NOP, the commands to send are in the script. -/
theorem HostSends.script_ne_nil (h : HostSends (w :: ws) s) (hidle : s.cmdValid = false ∨ s.cmd = 0) : s.script ≠ [] := by
  intro hnil
  have htodo := h.todo
  rcases hidle with hv | hc
  · simp [State.todo, State.pending, hv, hnil] at htodo
  · cases hv : s.cmdValid <;> simp [State.todo, State.pending, hv, hc, hnil] at htodo

/-- After finitely many waits and NOPs the next command is on the port: each takes a move from the script. -/
theorem HostSends.presents (h : HostSends (w :: ws) s) (hp : hostPhase s.phase = true) : Reaches (Presented s w ws) s := by
  generalize hlen : s.script.length = n
  induction n using Nat.strong_induction_on generalizing s with
  | _ n ih =>
    by_cases hidle : s.cmdValid = false ∨ s.cmd = 0
    · have hs := step_of_idling h.noReset.1 hp hidle
      have hshorter : (s.noResponse.driveHost false).script.length < n := by
        have hpos := List.length_pos_iff.2 (h.script_ne_nil hidle)
        rw [State.driveHost_script_tail, State.noResponse_script, List.length_tail]
        omega
      have hreach := ih _ hshorter (h.keep hs (.inr hidle)) (by simpa using hp) rfl
      exact Reaches.trans ⟨1, _, runFor_succ hs, rfl⟩ fun _ e => e ▸ hreach.trans fun t ht => Reaches.refl ht.of_idling
    · obtain ⟨hv, hc⟩ := not_or.1 hidle
      have hv : s.cmdValid = true := by simpa using hv
      exact Reaches.refl ⟨⟨rfl, rfl, rfl, rfl, rfl⟩, ⟨rfl, rfl, rfl, rfl, rfl, rfl⟩, h, hv, h.cmd_eq hv hc⟩

end Sys2Proof.Machine
end

section
/-! SUPPORT. What a chunk period computes (R185, R204, R225): the schedule word by word, the rounds one by one, and the sum into
H, each as a family of conditions that a step leads through; and the statements about it. -/

namespace Sys2Proof.Machine

variable {s₀ s t u : State} {i : Instr} {P : State → Prop} {k : Nat}

/-- What a chunk period leaves alone until ACCUM, from its start in `s₀`: the Hash State, the chunk, the registers that no
counting step writes, and the commands the host has still to send. -/
structure ChunkFrame (s₀ s : State) : Prop where
  host : HostSends s₀.todo s
  h : s.h = s₀.h
  blk : s.blk = s₀.blk
  padp : s.padp = s₀.padp
  len : s.len = s₀.len
  errcode : s.errcode = s₀.errcode

theorem ChunkFrame.refl (hn : NoReset s) : ChunkFrame s s := ⟨⟨hn, rfl⟩, rfl, rfl, rfl, rfl, rfl⟩

theorem ChunkFrame.trans (h : ChunkFrame s₀ s) (h' : ChunkFrame s t) : ChunkFrame s₀ t := by
  obtain ⟨host, hh, hblk, hpadp, hlen, herr⟩ := h'
  exact ⟨h.host.todo ▸ host, hh.trans h.h, hblk.trans h.blk, hpadp.trans h.padp, hlen.trans h.len, herr.trans h.errcode⟩

/-- The micro-operations of the scheduler and the compression engine. -/
def Instr.withinChunk (i : Instr) : Prop := i = .loadw ∨ i = .expand ∨ i = .loadregs ∨ i = .round

theorem Effect.chunk_frame (e : Effect s i u) (hi : Instr.withinChunk i) :
    u.h = s.h ∧ u.blk = s.blk ∧ u.padp = s.padp ∧ u.len = s.len ∧ u.errcode = s.errcode := by
  rcases hi with rfl | rfl | rfl | rfl <;> cases e <;> simp

/-- One of their steps: the frame is kept, and the arrays W and A and the counters are the micro-operation's. -/
theorem ChunkFrame.runsTo_one (f : ChunkFrame s₀ s) (hp : decodePhase s.phase = .instr i) (hi : Instr.withinChunk i)
    (hu : exec i s = .next u)
    (hP : ∀ t, ChunkFrame s₀ t → t.phase = u.phase → t.t = u.t → t.w = u.w → t.a = u.a → P t) : RunsTo 1 P s := by
  obtain ⟨hh, hblk, hpadp, hlen, herr⟩ := (exec_effect hu).chunk_frame hi
  refine RunsTo.busy f.host hp hu fun host => hP _ ⟨host, ?_, ?_, ?_, ?_, ?_⟩ ?_ ?_ ?_ ?_
  · rw [State.driveHost_h, hh, f.h]
  · rw [State.driveHost_blk, hblk, f.blk]
  · rw [State.driveHost_padp, hpadp, f.padp]
  · rw [State.driveHost_len, hlen, f.len]
  · rw [State.driveHost_errcode, herr, f.errcode]
  · rw [State.driveHost_phase]
  · rw [State.driveHost_t]
  · rw [State.driveHost_w]
  · rw [State.driveHost_a]

/-! The schedule. -/

/-- The phase of the scheduler when k words are in W. -/
def schedulePhase (k : Nat) : BitVec 4 := if k < 16 then Phase.loadw else if k < 64 then Phase.expand else Phase.loadregs

theorem schedulePhase_succ_of_lt (hk : k < 16) : schedulePhase (k + 1) = if k = 15 then Phase.expand else Phase.loadw := by
  by_cases hlast : k = 15
  · rw [hlast]
    rfl
  · rw [schedulePhase, if_pos (by omega), if_neg hlast]

theorem schedulePhase_succ_of_ge (lo : 16 ≤ k) (hk : k < 64) :
    schedulePhase (k + 1) = if k = 63 then Phase.loadregs else Phase.expand := by
  by_cases hlast : k = 63
  · rw [hlast]
    rfl
  · rw [schedulePhase, if_neg (by omega), if_pos (by omega), if_neg hlast]

/-- The first k words of the chunk's schedule are in W. -/
structure Scheduling (s₀ : State) (k : Nat) (s : State) : Prop where
  frame : ChunkFrame s₀ s
  phase : s.phase = schedulePhase k
  index : s.t.toNat = k
  words : ∀ (j : Nat) (hj : j < 64), j < k → s.w[j] = (schedule s₀.blk)[j]

/-- One element more of a vector that agrees with another below an index. -/
theorem getElem_set_extends {α : Type} {n : Nat} {a b : Vector α n} {x : α} (hk : k < n) (hx : x = b[k])
    (h : ∀ (j : Nat) (hj : j < n), j < k → a[j] = b[j]) :
    ∀ (j : Nat) (hj : j < n), j < k + 1 → (a.set k x hk)[j] = b[j] := by
  intro j hj hlt
  rw [Vector.getElem_set]
  split_ifs with hjk
  · subst hjk
    exact hx
  · exact h j hj (by omega)

theorem Scheduling.load (hk : k < 16) (h : Scheduling s₀ k s) : RunsTo 1 (Scheduling s₀ (k + 1)) s := by
  obtain ⟨f, hp, rfl, hw⟩ := h
  rw [schedulePhase, if_pos hk] at hp
  have hu : exec .loadw s = _ := execLoadw_of_lt hk
  have hword : memRead s.blk (4 * s.t.toNat) (by omega) = (schedule s₀.blk)[s.t.toNat] := by
    simp only [f.blk, schedule_getElem_of_lt s₀.blk hk]
  refine f.runsTo_one (decodePhase_of_eq hp (by decide)) (.inl rfl) hu fun t ft hphase ht htw _ => ⟨ft, ?_, ?_, ?_⟩
  · simp only [hphase, schedulePhase_succ_of_lt hk, State.noResponse_phase, State.setPhase_phase, count_eq_16_iff]
  · rw [ht]
    exact count_toNat (by omega)
  · rw [htw]
    exact getElem_set_extends _ hword hw

theorem Scheduling.expand (lo : 16 ≤ k) (hk : k < 64) (h : Scheduling s₀ k s) : RunsTo 1 (Scheduling s₀ (k + 1)) s := by
  obtain ⟨f, hp, rfl, hw⟩ := h
  rw [schedulePhase, if_neg (Nat.not_lt_of_le lo), if_pos hk] at hp
  have hu : exec .expand s = _ := execExpand_of_range lo hk
  have hword : scheduleWord s.w s.t.toNat lo hk = (schedule s₀.blk)[s.t.toNat] :=
    (scheduleWord_congr lo hk fun j hj => hw j (hj.trans hk) hj).trans (schedule_getElem_of_ge s₀.blk lo hk).symm
  refine f.runsTo_one (decodePhase_of_eq hp (by decide)) (.inr (.inl rfl)) hu fun t ft hphase ht htw _ => ⟨ft, ?_, ?_, ?_⟩
  · simp only [hphase, schedulePhase_succ_of_ge lo hk, State.noResponse_phase, State.setPhase_phase, count_eq_64_iff]
  · rw [ht]
    exact count_toNat hk
  · rw [htw]
    exact getElem_set_extends _ hword hw

theorem Scheduling.runs (hn : NoReset s) (hp : s.phase = Phase.loadw) (ht : s.t = 0) : RunsTo 64 (Scheduling s 64) s := by
  have start : Scheduling s 0 s := ⟨ChunkFrame.refl hn, hp, by simp [ht], fun j _ hj => absurd hj (Nat.not_lt_zero j)⟩
  refine RunsTo.iterate (fun k t hk h => ?_) start
  by_cases hlt : k < 16
  · exact h.load hlt
  · exact h.expand (Nat.le_of_not_lt hlt) hk

theorem Scheduling.w_eq (h : Scheduling s₀ 64 s) : s.w = schedule s₀.blk :=
  Vector.ext fun j hj => h.words j hj hj

/-- Settles O20: 64 steps put the 64 words in W, in order. -/
theorem schedulerComputesTheSchedule : Obligations.SchedulerComputesTheSchedule := by
  unfold Obligations.SchedulerComputesTheSchedule
  intro s hp ht hn
  obtain ⟨t, run, h⟩ := Scheduling.runs hn hp ht
  exact ⟨t, run, h.phase, h.w_eq, h.frame.h, h.frame.blk, h.frame.padp, h.frame.len⟩

/-! The rounds. -/

/-- k rounds of the compression are done. -/
structure Mixing (s₀ : State) (k : Nat) (s : State) : Prop where
  frame : ChunkFrame s₀ s
  w : s.w = s₀.w
  phase : s.phase = if k < 64 then Phase.round else Phase.accum
  index : s.t.toNat = k
  a : s.a = compressUpTo s₀.h s₀.w k

theorem Mixing.start (hn : NoReset s) (hp : s.phase = Phase.loadregs) : RunsTo 1 (Mixing s 0) s :=
  (ChunkFrame.refl hn).runsTo_one (decodePhase_of_eq hp (by decide)) (i := .loadregs) (.inr (.inr (.inl rfl))) rfl
    fun _ f hphase ht hw ha => ⟨f, hw, hphase, by rw [ht]; rfl, ha⟩

theorem Mixing.mix (hk : k < 64) (h : Mixing s₀ k s) : RunsTo 1 (Mixing s₀ (k + 1)) s := by
  obtain ⟨f, hw, hp, rfl, ha⟩ := h
  rw [if_pos hk] at hp
  have hu : exec .round s = _ := execRound_of_lt hk
  refine f.runsTo_one (decodePhase_of_eq hp (by decide)) (.inr (.inr (.inr rfl))) hu fun t ft hphase ht htw hta =>
    ⟨ft, htw.trans hw, ?_, ?_, ?_⟩
  · simp only [hphase, State.noResponse_phase, State.setPhase_phase, count_eq_64_iff]
    by_cases hlast : s.t.toNat = 63
    · rw [if_pos hlast, if_neg (by omega)]
    · rw [if_neg hlast, if_pos (by omega)]
  · rw [ht]
    exact count_toNat hk
  · rw [hta, compressUpTo, dif_pos hk]
    simp only [State.noResponse_a, State.setPhase_a, State.setT_a, State.setA_a, ha, hw]

theorem Mixing.runs (hn : NoReset s) (hp : s.phase = Phase.loadregs) : RunsTo (1 + 64) (Mixing s 64) s :=
  (Mixing.start hn hp).trans fun _ h => RunsTo.iterate (fun _ _ => Mixing.mix) h

/-- Settles O23: LOADREGS is round 0's start, and each ROUND one round more. -/
theorem compressionEngineComputesCompress : Obligations.CompressionEngineComputesCompress := by
  unfold Obligations.CompressionEngineComputesCompress
  intro s hp hn
  obtain ⟨t, run, h⟩ := Mixing.runs hn hp
  exact ⟨t, run, h.phase, h.a, h.frame.h, h.w⟩

/-! The whole period. -/

/-- The state after a chunk period that began in `s₀`. -/
structure Folded (s₀ s : State) : Prop where
  host : HostSends s₀.todo s
  h : s.h = block s₀.h s₀.blk
  fill : s.fill = 0
  padp : s.padp = s₀.padp
  len : s.len = s₀.len
  errcode : s.errcode = s₀.errcode
  phase : s.phase = phaseAfterChunk s₀.padp

theorem Folded.of_accum (f : ChunkFrame s₀ s) (hp : s.phase = Phase.accum) (ha : s.a = compress s₀.h (schedule s₀.blk)) :
    RunsTo 1 (Folded s₀) s := by
  refine RunsTo.busy (i := .accum) f.host (decodePhase_of_eq hp (by decide)) rfl fun host => ⟨host, ?_, ?_, ?_, ?_, ?_, ?_⟩
  · simp only [State.driveHost_h, State.noResponse_h, State.setPhase_h, State.setFill_h, State.setH_h, f.h, ha, block]
  · simp
  · simpa using f.padp
  · simpa using f.len
  · simpa using f.errcode
  · simp [f.padp]

/-- R225: a chunk period applies `block`. -/
theorem Folded.runs (hn : NoReset s) (hp : s.phase = Phase.loadw) (ht : s.t = 0) : RunsTo 130 (Folded s) s := by
  have scheduled : RunsTo 64 (Scheduling s 64) s := Scheduling.runs hn hp ht
  have mixed : RunsTo (64 + (1 + 64))
      (fun u => ChunkFrame s u ∧ u.phase = Phase.accum ∧ u.a = compress s.h (schedule s.blk)) s := by
    refine scheduled.trans fun t hS => (Mixing.runs hS.frame.host.noReset hS.phase).mono fun u hM => ⟨?_, hM.phase, ?_⟩
    · exact hS.frame.trans hM.frame
    · rw [hM.a, hS.frame.h, hS.w_eq, compress]
  exact mixed.trans fun _ ⟨f, hp, ha⟩ => Folded.of_accum f hp ha

/-- Settles O25: the schedule, the rounds and ACCUM one after the other. -/
theorem chunkPeriodAppliesBlock : Obligations.ChunkPeriodAppliesBlock := by
  unfold Obligations.ChunkPeriodAppliesBlock
  intro s hp ht hn
  obtain ⟨t, run, h⟩ := Folded.runs hn hp ht
  exact ⟨t, run, h.h, h.fill, h.padp, h.len, h.errcode, h.phase.trans (phaseAfterChunk_eq_ite s.padp)⟩

end Sys2Proof.Machine
end

section
/-! SUPPORT. A byte sequence taken in byte by byte, from the host or from the padder (R62, R63, R280): the condition on FILL, BLK
and H, the byte write that extends it, and the chunk period that follows a full chunk. -/

namespace Sys2Proof.Machine

variable {s t u : State} {p q : List Byte} {n : Nat} {m : List Byte} {b : Byte} {ws : List (BitVec 16)}

/-! The Hash State over the chunks of a byte sequence looks only at those chunks. -/

theorem chunkAt_append {j : Nat} (h : 64 * (j + 1) ≤ p.length) : chunkAt (p ++ q) j = chunkAt p j := by
  refine Vector.ext fun i hi => ?_
  simp only [chunkAt, Vector.getElem_ofFn]
  exact List.getD_append p q 0 _ (by omega)

theorem hashChunks_append {j : Nat} (h : 64 * j ≤ p.length) : hashChunks (p ++ q) j = hashChunks p j := by
  induction j with
  | zero => rfl
  | succ j ih => rw [hashChunks, hashChunks, ih (by omega), chunkAt_append h]

/-! The first n bytes of a sequence, taken in. -/

/-- FILL, BLK and H when the first n bytes of `p` have been taken in and the chunks among them folded into H. -/
structure Holds (p : List Byte) (n : Nat) (s : State) : Prop where
  fill : s.fill.toNat = n % 64
  blk : ∀ (i : Nat) (hi : i < 64), i < n % 64 → s.blk[i] = p.getD (64 * (n / 64) + i) 0
  h : s.h = hashChunks p (n / 64)

/-- It depends on the first n bytes alone. -/
theorem Holds.append (h : Holds p n s) (hn : n ≤ p.length) : Holds (p ++ q) n s := by
  refine ⟨h.fill, fun i hi hlt => ?_, ?_⟩
  · rw [h.blk i hi hlt, List.getD_append p q 0 _ (by omega)]
  · rw [h.h, hashChunks_append (by omega)]

theorem Holds.fill_lt (h : Holds p n s) : s.fill.toNat < 64 := h.fill ▸ Nat.mod_lt n (by decide)

theorem Holds.congr (h : Holds p n s) (hfill : t.fill = s.fill) (hblk : t.blk = s.blk) (hh : t.h = s.h) : Holds p n t := by
  refine ⟨?_, ?_, ?_⟩
  · rw [hfill, h.fill]
  · rw [hblk]
    exact h.blk
  · rw [hh, h.h]

/-- The bytes of the chunk after the write of byte n. -/
theorem Holds.blk_set (h : Holds p n s) (hf : s.fill.toNat < 64) (i : Nat) (hi : i < 64) (hlt : i < n % 64 + 1) :
    (s.blk.set s.fill.toNat (p.getD n 0) hf)[i] = p.getD (64 * (n / 64) + i) 0 := by
  rw [Vector.getElem_set]
  split_ifs with heq
  · congr 1
    have := h.fill
    omega
  · have hne : i ≠ n % 64 := fun e => heq (h.fill.trans e.symm)
    exact h.blk i hi (by omega)

/-- The write of byte n, in a chunk that it does not complete. -/
theorem Holds.extend (h : Holds p n s) (hlt : n % 64 < 63) (hf : s.fill.toNat < 64)
    (hfill : t.fill = s.fill + 1) (hblk : t.blk = s.blk.set s.fill.toNat (p.getD n 0) hf) (hh : t.h = s.h) :
    Holds p (n + 1) t := by
  have hmod : (n + 1) % 64 = n % 64 + 1 := by omega
  have hdiv : (n + 1) / 64 = n / 64 := by omega
  refine ⟨?_, ?_, ?_⟩
  · rw [hfill, count_toNat hf, h.fill, hmod]
  · rw [hmod, hdiv, hblk]
    exact h.blk_set hf
  · rw [hh, h.h, hdiv]

/-- A whole chunk of `p` is in BLK, and the chunks before it are folded into H; its chunk period begins. -/
structure ChunkReady (p : List Byte) (j : Nat) (s : State) : Prop where
  phase : s.phase = Phase.loadw
  index : s.t = 0
  blk : s.blk = chunkAt p j
  h : s.h = hashChunks p j

/-- The write of byte n, in a chunk that it completes. -/
theorem Holds.complete (h : Holds p n s) (hlast : n % 64 = 63) (hf : s.fill.toNat < 64)
    (hphase : t.phase = Phase.loadw) (ht : t.t = 0) (hblk : t.blk = s.blk.set s.fill.toNat (p.getD n 0) hf)
    (hh : t.h = s.h) : ChunkReady p (n / 64) t := by
  refine ⟨hphase, ht, ?_, hh.trans h.h⟩
  rw [hblk]
  refine Vector.ext fun i hi => ?_
  rw [h.blk_set hf i hi (by omega)]
  simp [chunkAt]

/-- The chunk period folds it in. -/
theorem ChunkReady.folds {j : Nat} (h : ChunkReady p j s) (hn : NoReset s) :
    RunsTo 130 (fun t => Folded s t ∧ Holds p (64 * (j + 1)) t) s := by
  refine (Folded.runs hn h.phase h.index).mono fun t ht => ⟨ht, ?_, ?_, ?_⟩
  · rw [ht.fill, Nat.mul_mod_right]
    rfl
  · intro i _ hlt
    rw [Nat.mul_mod_right] at hlt
    exact absurd hlt (Nat.not_lt_zero i)
  · rw [ht.h, h.h, h.blk, Nat.mul_div_cancel_left _ (by decide), hashChunks]

end Sys2Proof.Machine
end

section
/-! SUPPORT. The open message (R280, R305): what keeps the bytes absorbed, how ABSORB appends one, and the statements about
them. -/

namespace Sys2Proof.Machine

variable {s t u : State} {m bs : List Byte} {b : Byte} {ws : List (BitVec 16)}

theorem absorbed_iff : Absorbed m s ↔
    s.phase = Phase.opened ∧ s.len.toNat = m.length ∧ s.padp = .pnone ∧ Holds m m.length s :=
  ⟨fun ⟨hp, hlen, hfill, hblk, hpadp, hh⟩ => ⟨hp, hlen, hpadp, hfill, hblk, hh⟩,
    fun ⟨hp, hlen, hpadp, hfill, hblk, hh⟩ => ⟨hp, hlen, hfill, hblk, hpadp, hh⟩⟩

theorem Absorbed.holds (h : Absorbed m s) : Holds m m.length s := ⟨h.fill, h.blk, h.h⟩

/-- A step that writes none of the registers it speaks of. -/
theorem Absorbed.congr (h : Absorbed m s) (hphase : t.phase = s.phase) (hlen : t.len = s.len) (hpadp : t.padp = s.padp)
    (hfill : t.fill = s.fill) (hblk : t.blk = s.blk) (hh : t.h = s.h) : Absorbed m t :=
  absorbed_iff.2 ⟨hphase.trans h.phase, by rw [hlen, h.len], hpadp.trans h.padp, h.holds.congr hfill hblk hh⟩

theorem Absorbed.raiseErr (h : Absorbed m s) (e : Err) : Absorbed m (s.raiseErr e) := by
  apply h.congr <;> simp

theorem Absorbed.driveHost (h : Absorbed m s) (held : Bool) : Absorbed m (s.driveHost held) := by
  apply h.congr <;> simp

theorem absorbed_openMessage (s : State) : Absorbed [] s.openMessage.noResponse := by
  refine absorbed_iff.2 ⟨rfl, rfl, rfl, rfl, fun i _ hi => ?_, rfl⟩
  exact absurd hi (Nat.not_lt_zero i)

/-- Settles O9: the error leaves the message's registers alone, and FINAL, whatever LEN, writes PADP and PHASE. -/
theorem lengthOverflowLeavesTheMessage : Obligations.LengthOverflowLeavesTheMessage := by
  unfold Obligations.LengthOverflowLeavesTheMessage
  refine ⟨fun m b s h hlen => ?_, fun b s hp => absorb_raises_protocol b (by rw [hp]; decide)⟩
  have hmax : s.len.toNat = 2 ^ 61 - 1 := h.len.trans hlen
  refine ⟨absorb_raises_lenovf b h.phase hmax, fun t ht => ?_⟩
  cases exec_effect ht with
  | absorb _ _ hne => exact absurd hmax hne
  | absorbProtocol _ hne => exact absurd h.phase hne
  | absorbLenovf =>
    have h' := h.raiseErr .lenovf
    exact ⟨h', _, final_of_opened h'.phase, by simp⟩

/-- ABSORB's word, and the command it decodes to. -/
theorem decodeCmd_absorb (b : Byte) : decodeCmd (cmdWord 0x2 b) = .instr (.absorb b) := decode_encode (i := .absorb b) rfl

theorem cmdWord_ne_zero {op : BitVec 4} {arg : Byte} (h : op ≠ 0) : cmdWord op arg ≠ 0 := fun hzero =>
  h ((opField_cmdWord op arg).symm.trans (congrArg opField hzero))

/-- An ABSORB on the port is taken, below the length limit, and writes its byte. -/
theorem Absorbed.takes {P : State → Prop} (h : Absorbed m s) (hlen : m.length < 2 ^ 61 - 1) (hs : HostSends ws s)
    (hv : s.cmdValid = true) (hc : s.cmd = cmdWord 0x2 b)
    (hP : HostSends ws.tail ((((s.storeByte Phase.opened b h.holds.fill_lt).setLen (s.len + 1)).setPadp
        s.padp).noResponse.driveHost false) →
      P ((((s.storeByte Phase.opened b h.holds.fill_lt).setLen (s.len + 1)).setPadp s.padp).noResponse.driveHost false)) :
    RunsTo 1 P s := by
  have hne : s.len.toNat ≠ 2 ^ 61 - 1 := by
    rw [h.len]
    exact hlen.ne
  have hhost : hostPhase s.phase = true := by
    rw [h.phase]
    decide
  exact RunsTo.accept hs hhost hv (hc ▸ decodeCmd_absorb b) (hc ▸ cmdWord_ne_zero (by decide))
    (exec_absorb_of_lt h.phase hne h.holds.fill_lt) hP

theorem Absorbed.len_succ (h : Absorbed m s) (hlen : m.length < 2 ^ 61 - 1) (b : Byte) :
    (s.len + 1).toNat = (m ++ [b]).length := by
  rw [List.length_append, List.length_singleton, ← h.len]
  have := h.len
  bv_omega

/-- A byte that does not complete a chunk: the next state is the open message with it. -/
theorem Absorbed.append_within (h : Absorbed m s) (hlen : m.length < 2 ^ 61 - 1) (hs : HostSends ws s)
    (hv : s.cmdValid = true) (hc : s.cmd = cmdWord 0x2 b) (hlast : s.fill.toNat ≠ 63) :
    RunsTo 1 (fun t => Absorbed (m ++ [b]) t ∧ t.errcode = s.errcode ∧ HostSends ws.tail t) s := by
  have hholds : Holds (m ++ [b]) m.length s := h.holds.append le_rfl
  have hmod : m.length % 64 < 63 := by
    have := hholds.fill
    omega
  refine h.takes hlen hs hv hc fun host => ⟨absorbed_iff.2 ⟨?_, ?_, ?_, ?_⟩, ?_, host⟩
  · simp [State.storeByte, hlast]
  · simpa [State.storeByte] using h.len_succ hlen b
  · simp [State.storeByte, h.padp]
  · rw [List.length_append, List.length_singleton]
    refine hholds.extend hmod hholds.fill_lt ?_ ?_ ?_ <;> simp [State.storeByte]
  · simp [State.storeByte]

/-- A byte that completes a chunk: the next state begins the period of the chunk with it. -/
theorem Absorbed.append_last (h : Absorbed m s) (hlen : m.length < 2 ^ 61 - 1) (hs : HostSends ws s)
    (hv : s.cmdValid = true) (hc : s.cmd = cmdWord 0x2 b) (hlast : s.fill.toNat = 63) :
    RunsTo 1 (fun t => ChunkReady (m ++ [b]) (m.length / 64) t ∧ HostSends ws.tail t ∧
      t.len.toNat = (m ++ [b]).length ∧ t.padp = .pnone ∧ t.errcode = s.errcode) s := by
  have hholds : Holds (m ++ [b]) m.length s := h.holds.append le_rfl
  have hmod : m.length % 64 = 63 := hholds.fill ▸ hlast
  refine h.takes hlen hs hv hc fun host => ⟨hholds.complete hmod hholds.fill_lt ?_ ?_ ?_ ?_, host, ?_, ?_, ?_⟩ <;>
    simp [State.storeByte, hlast, h.padp]
  simpa using h.len_succ hlen b

/-- One byte absorbed: one step, and a chunk period after the 64th byte of a chunk. -/
theorem Absorbed.append (h : Absorbed m s) (hlen : m.length < 2 ^ 61 - 1) (hs : HostSends ws s) (hv : s.cmdValid = true)
    (hc : s.cmd = cmdWord 0x2 b) : ∃ k, 1 ≤ k ∧ k ≤ 131 ∧
      RunsTo k (fun t => Absorbed (m ++ [b]) t ∧ t.errcode = s.errcode ∧ HostSends ws.tail t) s := by
  by_cases hlast : s.fill.toNat = 63
  · have hall : 64 * (m.length / 64 + 1) = (m ++ [b]).length := by
      have := h.fill
      rw [List.length_append, List.length_singleton]
      omega
    refine ⟨1 + 130, by decide, le_rfl, (h.append_last hlen hs hv hc hlast).trans ?_⟩
    rintro t ⟨hready, host, hlen', hpadp, herr⟩
    refine (hready.folds host.noReset).mono fun u ⟨hfold, hholds⟩ =>
      ⟨absorbed_iff.2 ⟨?_, ?_, hfold.padp.trans hpadp, hall ▸ hholds⟩, hfold.errcode.trans herr, host.todo ▸ hfold.host⟩
    · rw [hfold.phase, hpadp]
      rfl
    · rw [hfold.len, hlen']
  · exact ⟨1, le_rfl, by decide, h.append_within hlen hs hv hc hlast⟩

/-- Settles O53: `Absorbed.append` from a host with this byte on the port. -/
theorem absorbedBytesAreTheMessage : Obligations.AbsorbedBytesAreTheMessage := by
  unfold Obligations.AbsorbedBytesAreTheMessage
  refine ⟨fun s t hs => ?_, fun m s t h hs => ?_, fun m b s h hlen hn hv hc => ?_⟩
  · cases exec_effect hs
    exact absorbed_openMessage s
  · rcases hs with hs | ⟨arg, hs⟩ | ⟨e, rfl⟩
    · cases exec_effect hs
      exact h.congr rfl rfl rfl rfl rfl rfl
    · cases exec_effect hs with
      | rdd => exact h.congr rfl rfl rfl rfl rfl rfl
      | rddProtocol => exact h.raiseErr _
    · exact h.raiseErr e
  · obtain ⟨k, hpos, hk, t, run, ht, herr, -⟩ := h.append hlen ⟨hn, rfl⟩ hv (hc.trans (cmdWord_absorb b).symm)
    exact ⟨k, t, hpos, hk, run, ht, herr⟩

end Sys2Proof.Machine
end

section
/-! SUPPORT. The padder emits pad(m) (R163, R164): the byte it selects is the sequence's next byte, and chunk by chunk the
sequence is folded into H; and the statement about it. -/

namespace Sys2Proof.Machine

variable {s₀ s t u : State} {m : List Byte} {n : Nat}

/-! The bytes of pad(m) after the message. -/

/-- Where the length field of a message of `len` bytes begins. -/
def fieldStart (len : Nat) : Nat := len + 1 + zeros len

theorem fieldStart_mod (len : Nat) : fieldStart len % 64 = 56 := (zeros_spec len).1

theorem add_padlen_eq_fieldStart (len : Nat) : len + padlen len = fieldStart len + 8 := by
  unfold fieldStart padlen
  omega

theorem pad_eq_append (m : List Byte) :
    pad m = m ++ ([0x80] ++ List.replicate (zeros m.length) 0x00 ++ be64 (bitLength m.length)) := by
  simp [pad]

theorem pad_getD_message : (pad m).getD m.length 0 = 0x80 := by
  simp [pad, List.getD_eq_getElem?_getD]

theorem pad_getD_zeros (hlo : m.length < n) (hhi : n < fieldStart m.length) : (pad m).getD n 0 = 0x00 := by
  unfold fieldStart at hhi
  obtain ⟨k, rfl⟩ := Nat.exists_eq_add_of_lt hlo
  have hk : k < zeros m.length := by omega
  simp [pad, List.getD_eq_getElem?_getD, List.getElem?_append, hk, Nat.add_assoc]

theorem be64_getD (v : BitVec 64) {j : Nat} (hj : j < 8) : (be64 v).getD j 0 = v.extractLsb' (56 - 8 * j) 8 := by
  rw [List.getD_eq_getElem _ _ (by rwa [length_be64])]
  exact List.getElem_ofFn _

theorem pad_getD_field {j : Nat} (hj : j < 8) :
    (pad m).getD (fieldStart m.length + j) 0 = (bitLength m.length).extractLsb' (56 - 8 * j) 8 := by
  have hlen : fieldStart m.length = (m ++ [0x80] ++ List.replicate (zeros m.length) (0x00 : Byte)).length := by
    simp [fieldStart]
    omega
  rw [pad, hlen, List.getD_append_right _ _ _ _ (Nat.le_add_right _ _), Nat.add_sub_cancel_left,
    be64_getD _ hj]

theorem bitLength_eq_lengthField {len : BitVec 61} : bitLength len.toNat = lengthField len :=
  BitVec.eq_of_toNat_eq ((bitLength_toNat len.isLt).trans (lengthField_toNat len).symm)

/-! PADP and the byte selected, at each place of the sequence. -/

/-- PADP before byte n of the padded message is emitted. -/
def padpAt (len n : Nat) : Padp := if n = len then .p80 else if n ≤ fieldStart len then .pz else .pl

theorem padpAt_of_zeros {len n : Nat} (hlo : len < n) (hhi : n ≤ fieldStart len) : padpAt len n = .pz := by
  rw [padpAt, if_neg (Nat.ne_of_gt hlo), if_pos hhi]

theorem padpAt_of_field {len n : Nat} (h : fieldStart len < n) : padpAt len n = .pl := by
  have hlo : len < n := by
    unfold fieldStart at h
    omega
  rw [padpAt, if_neg (Nat.ne_of_gt hlo), if_neg (Nat.not_le_of_lt h)]

/-- The selection of R163 at byte n is byte n of pad(m), and the progress for byte n + 1. -/
theorem padSelect_emits {fill : BitVec 7} {len : BitVec 61} (hlen : len.toNat = m.length) (hfill : fill.toNat = n % 64)
    (hlo : m.length ≤ n) (hhi : n < m.length + padlen m.length) :
    padSelect (padpAt m.length n) fill len = ((pad m).getD n 0, padpAt m.length (n + 1)) := by
  have h56 : fill = 56 ↔ n % 64 = 56 := by
    rw [← hfill]
    bv_omega
  rw [add_padlen_eq_fieldStart] at hhi
  rcases hlo.eq_or_lt with rfl | hlt
  · have hnext : m.length + 1 ≤ fieldStart m.length := Nat.le_add_right _ _
    rw [pad_getD_message, padpAt_of_zeros (Nat.lt_succ_self _) hnext, padpAt, if_pos rfl]
    rfl
  · rcases Nat.lt_or_ge n (fieldStart m.length) with hz | hge
    · have hne : fill ≠ 56 := fun e => by
        obtain ⟨k, rfl⟩ := Nat.exists_eq_add_of_lt hlt
        have hk := zeros_le_of_fits (n := m.length) (k := k) (by have := h56.1 e; omega)
        unfold fieldStart at hz
        omega
      rw [pad_getD_zeros hlt hz, padpAt_of_zeros hlt hz.le, padpAt_of_zeros (Nat.lt_succ_of_lt hlt) hz]
      simp [padSelect, show ¬ fill = 56#7 from hne]
    · obtain ⟨j, rfl⟩ := Nat.exists_eq_add_of_le hge
      have hj : j < 8 := by omega
      have hstart := fieldStart_mod m.length
      have hindex : (fill.extractLsb' 0 3).toNat = j := by
        rw [BitVec.extractLsb'_toNat, Nat.shiftRight_zero, hfill]
        omega
      have hbyte : lenbyte len (fill.extractLsb' 0 3) = (pad m).getD (fieldStart m.length + j) 0 := by
        rw [pad_getD_field hj, ← hlen, bitLength_eq_lengthField, lenbyte, hindex]
      have hfirst : padpAt m.length (fieldStart m.length + j) = .pl ∨
          padpAt m.length (fieldStart m.length + j) = .pz ∧ fill = 56 := by
        rcases Nat.eq_zero_or_pos j with rfl | hpos
        · exact .inr ⟨padpAt_of_zeros hlt le_rfl, h56.2 hstart⟩
        · exact .inl (padpAt_of_field (by omega))
      rw [padpAt_of_field (n := fieldStart m.length + j + 1) (by omega), ← hbyte]
      rcases hfirst with hpl | ⟨hpz, hfill56⟩
      · simp [padSelect, hpl]
      · simp [padSelect, hpz, hfill56]

/-! The padder's steps. -/

/-- Everything a chunk of padding keeps: LEN and ERRCODE, and the commands the host has still to send. -/
structure PadFrame (m : List Byte) (s₀ s : State) : Prop where
  host : HostSends s₀.todo s
  len : s.len.toNat = m.length
  errcode : s.errcode = s₀.errcode

/-- The padder is about to emit byte n of pad(m). -/
structure Emitting (m : List Byte) (s₀ : State) (n : Nat) (s : State) : Prop where
  frame : PadFrame m s₀ s
  phase : s.phase = Phase.pad
  padp : s.padp = padpAt m.length n
  holds : Holds (pad m) n s
  started : m.length ≤ n

/-- The padder has completed chunk j of pad(m). -/
structure Emitted (m : List Byte) (s₀ : State) (j : Nat) (s : State) : Prop where
  frame : PadFrame m s₀ s
  padp : s.padp = padpAt m.length (64 * (j + 1))
  ready : ChunkReady (pad m) j s

theorem Emitting.exec_eq (h : Emitting m s₀ n s) (hhi : n < m.length + padlen m.length) :
    exec .pad s = .next ((((s.storeByte Phase.pad ((pad m).getD n 0) h.holds.fill_lt).setLen s.len).setPadp
      (padpAt m.length (n + 1))).noResponse) := by
  rw [exec_pad_of_lt h.holds.fill_lt, h.padp, padSelect_emits h.frame.len h.holds.fill h.started hhi]

theorem Emitting.step (h : Emitting m s₀ n s) (hhi : n < m.length + padlen m.length) (hlt : n % 64 < 63) :
    RunsTo 1 (Emitting m s₀ (n + 1)) s := by
  have hlast : s.fill.toNat ≠ 63 := by
    rw [h.holds.fill]
    exact hlt.ne
  refine RunsTo.busy h.frame.host (decodePhase_of_eq h.phase (by decide)) (h.exec_eq hhi) fun host =>
    ⟨⟨host, ?_, ?_⟩, ?_, ?_, h.holds.extend hlt h.holds.fill_lt ?_ ?_ ?_, Nat.le_succ_of_le h.started⟩ <;>
    simp [State.storeByte, hlast, h.frame.len, h.frame.errcode]

theorem Emitting.last (h : Emitting m s₀ n s) (hhi : n < m.length + padlen m.length) (hlast : n % 64 = 63) :
    RunsTo 1 (Emitted m s₀ (n / 64)) s := by
  have hlast' : s.fill.toNat = 63 := h.holds.fill.trans hlast
  have hnext : n + 1 = 64 * (n / 64 + 1) := by omega
  refine RunsTo.busy h.frame.host (decodePhase_of_eq h.phase (by decide)) (h.exec_eq hhi) fun host =>
    ⟨⟨host, ?_, ?_⟩, ?_, h.holds.complete hlast h.holds.fill_lt ?_ ?_ ?_ ?_⟩ <;>
    simp [State.storeByte, hlast', h.frame.len, h.frame.errcode, hnext]

/-- The padder completes the chunk at hand. -/
theorem Emitting.completes (h : Emitting m s₀ n s) (hhi : 64 * (n / 64 + 1) ≤ m.length + padlen m.length) :
    RunsTo (64 - n % 64) (Emitted m s₀ (n / 64)) s := by
  have filled : RunsTo (63 - n % 64) (Emitting m s₀ (n + (63 - n % 64))) s :=
    RunsTo.iterate (I := fun k => Emitting m s₀ (n + k))
      (fun k t hk ht => ht.step (by omega) (by omega)) h
  have hchunk : (n + (63 - n % 64)) / 64 = n / 64 := by omega
  rw [show 64 - n % 64 = 63 - n % 64 + 1 by omega, ← hchunk]
  exact filled.trans fun t ht => ht.last (by omega) (by omega)

/-- The state in which SERIAL is due, the whole of pad(m) being folded in. -/
structure PaddingFolded (m : List Byte) (s₀ s : State) : Prop where
  host : HostSends s₀.todo s
  phase : s.phase = Phase.serial
  h : s.h = hashChunks (pad m) (nblocks m.length)
  errcode : s.errcode = s₀.errcode

/-- The last chunk of pad(m), folded in. -/
theorem Emitted.folds_last {j : Nat} (h : Emitted m s₀ j s) (hj : nblocks m.length = j + 1) :
    RunsTo 130 (PaddingFolded m s₀) s := by
  have hend : padpAt m.length (64 * (j + 1)) = .pl := by
    have := add_padlen m.length
    rw [add_padlen_eq_fieldStart] at this
    exact padpAt_of_field (by omega)
  refine (h.ready.folds h.frame.host.noReset).mono fun t ⟨hfold, hholds⟩ =>
    ⟨h.frame.host.todo ▸ hfold.host, ?_, ?_, hfold.errcode.trans h.frame.errcode⟩
  · rw [hfold.phase, h.padp, hend]
    rfl
  · rw [hholds.h, hj, Nat.mul_div_cancel_left _ (by decide)]

/-- A chunk of pad(m) that is followed by one more, folded in. -/
theorem Emitted.folds_more {j : Nat} (h : Emitted m s₀ j s) (hj : nblocks m.length = j + 2) (hlo : m.length < 64 * (j + 1)) :
    RunsTo 130 (Emitting m s₀ (64 * (j + 1))) s := by
  have hzeros : padpAt m.length (64 * (j + 1)) = .pz := by
    have := add_padlen m.length
    rw [add_padlen_eq_fieldStart] at this
    exact padpAt_of_zeros hlo (by omega)
  refine (h.ready.folds h.frame.host.noReset).mono fun t ⟨hfold, hholds⟩ =>
    ⟨⟨h.frame.host.todo ▸ hfold.host, ?_, hfold.errcode.trans h.frame.errcode⟩, ?_, hfold.padp.trans h.padp, hholds, hlo.le⟩
  · rw [hfold.len, h.frame.len]
  · rw [hfold.phase, h.padp, hzeros]
    rfl

/-! The final period. -/

theorem nblocks_of_mod_le (h : n % 64 ≤ 55) : nblocks n = n / 64 + 1 := by
  unfold nblocks
  omega

theorem nblocks_of_mod_gt (h : 55 < n % 64) : nblocks n = n / 64 + 2 := by
  unfold nblocks
  omega

/-- The first chunk that the padder completes holds the last bytes of the message. -/
theorem Emitting.first_chunk (h : Emitting m s₀ m.length s) :
    RunsTo (64 - m.length % 64) (Emitted m s₀ (m.length / 64)) s := by
  refine h.completes ?_
  rw [add_padlen, nblocks]
  omega

/-- R164: the padder's chunks, one or two, take in the whole of pad(m). -/
theorem Emitting.folds_padding (h : Emitting m s₀ m.length s) :
    RunsTo (padlen m.length + (if m.length % 64 ≤ 55 then 130 else 260)) (PaddingFolded m s₀) s := by
  split_ifs with hfits
  · rw [padlen_of_mod_le hfits]
    exact h.first_chunk.trans fun t ht => ht.folds_last (nblocks_of_mod_le hfits)
  · have htwo := nblocks_of_mod_gt (Nat.lt_of_not_le hfits)
    have hmore : RunsTo (64 - m.length % 64 + 130) (Emitting m s₀ (64 * (m.length / 64 + 1))) s :=
      h.first_chunk.trans fun t ht => ht.folds_more htwo (by omega)
    have hsecond : RunsTo (64 - m.length % 64 + 130 + 64) (Emitted m s₀ (m.length / 64 + 1)) s := by
      refine hmore.trans fun t ht => ?_
      have hnext := ht.completes (by rw [add_padlen, htwo]; omega)
      rwa [Nat.mul_mod_right, Nat.mul_div_cancel_left _ (by decide)] at hnext
    rw [padlen_of_mod_gt (Nat.lt_of_not_le hfits),
      show 64 - m.length % 64 + 64 + 260 = 64 - m.length % 64 + 130 + 64 + 130 by omega]
    exact hsecond.trans fun t ht => ht.folds_last htwo

/-- FINAL leaves the padder at its first byte. -/
theorem Absorbed.emitting (h : Absorbed m s) (hhost : HostSends s₀.todo t) (hphase : t.phase = Phase.pad) (hpadp : t.padp = .p80)
    (hlen : t.len = s.len) (hfill : t.fill = s.fill) (hblk : t.blk = s.blk) (hh : t.h = s.h) (herr : t.errcode = s₀.errcode) :
    Emitting m s₀ m.length t := by
  refine ⟨⟨hhost, by rw [hlen, h.len], herr⟩, hphase, by rw [hpadp, padpAt, if_pos rfl], ?_, le_rfl⟩
  rw [pad_eq_append]
  exact (h.holds.congr hfill hblk hh).append le_rfl

/-- Settles O54: the first chunk the padder completes, and the last one folded in. -/
theorem padderCompletesThePaddedMessage : Obligations.PadderCompletesThePaddedMessage := by
  unfold Obligations.PadderCompletesThePaddedMessage
  intro m s t h _ hn hfinal
  have hemit : Emitting m t m.length t := by
    cases exec_effect hfinal with
    | final => exact h.emitting ⟨hn, rfl⟩ rfl rfl rfl rfl rfl rfl rfl
    | finalProtocol hne => exact absurd h.phase hne
  constructor
  · have hsteps : (if m.length % 64 ≤ 55 then padlen m.length else 64 - m.length % 64) = 64 - m.length % 64 := by
      split_ifs with hfits
      · exact padlen_of_mod_le hfits
      · rfl
    obtain ⟨u, run, hu⟩ := hemit.first_chunk
    rw [hsteps]
    exact ⟨u, run, hu.ready.phase, hu.ready.index, hu.ready.blk⟩
  · obtain ⟨u, run, hu⟩ := hemit.folds_padding
    exact ⟨u, run, hu.phase, hu.h⟩

end Sys2Proof.Machine
end

section
/-! SUPPORT. A whole message (R283): the host's commands one after the other, from any state in which the host steps to DONE with
the digest; and the statement about it. -/

namespace Sys2Proof.Machine

variable {s t u : State} {m bs : List Byte} {ws : List (BitVec 16)} {i : Instr} {P : State → Prop}

/-! The words of a list of commands. -/

/-- The words a host presents for a list of commands. -/
def commandWords (cs : List Instr) : List (BitVec 16) := (cs.map presentMove).filterMap HostMove.word

theorem commandWords_append (cs ds : List Instr) : commandWords (cs ++ ds) = commandWords cs ++ commandWords ds := by
  simp [commandWords]

theorem commandWords_cons {cs : List Instr} {w : BitVec 16} (h : encode i = .cmd16 w) :
    commandWords (i :: cs) = w :: commandWords cs := by
  simp [commandWords, presentMove, h, HostMove.word]

theorem commandWords_send (m : List Byte) : commandWords (sendCommands m) =
    cmdWord 0x1 0 :: (commandWords (m.map .absorb) ++ [cmdWord 0x3 0]) := by
  rw [sendCommands, List.append_assoc, List.singleton_append, commandWords_cons (i := .init) rfl, commandWords_append]
  rfl

/-- Leaving out waits and NOPs among the moves leaves out the words 0 among the words. -/
theorem filterMap_word_filter (script : List HostMove) : (script.filterMap HostMove.word).filter (fun w => w ≠ 0) =
    (script.filter fun m => m ≠ .wait && m ≠ presentMove .nop).filterMap HostMove.word := by
  have hnop : presentMove .nop = .present 0 := rfl
  rw [hnop]
  induction script with
  | nil => rfl
  | cons move rest ih =>
    cases move with
    | present w => by_cases hw : w = 0 <;> simp_all [HostMove.word]
    | _ => simp_all [HostMove.word, List.filterMap_cons]

theorem presentMove_raisesReset (i : Instr) : (presentMove i).raisesReset = false := by
  cases i <;> rfl

/-- A host that sends the commands raises no reset, and has their words to send (R283). -/
theorem Sends.hostSends {cs : List Instr} (h : Sends s.script cs) (hr : s.rst = false) (hv : s.cmdValid = false) :
    HostSends (commandWords cs) s := by
  refine ⟨⟨hr, fun move hmove => ?_⟩, ?_⟩
  · by_cases hkept : (move ≠ .wait && move ≠ presentMove .nop) = true
    · have hmem : move ∈ cs.map presentMove := h ▸ List.mem_filter.2 ⟨hmove, hkept⟩
      obtain ⟨i, -, rfl⟩ := List.mem_map.1 hmem
      exact presentMove_raisesReset i
    · have hdropped : move = .wait ∨ move = presentMove .nop := by simpa [or_iff_not_imp_left] using hkept
      rcases hdropped with rfl | rfl <;> rfl
  · rw [State.todo, State.pending, hv, if_neg Bool.false_ne_true, List.nil_append, filterMap_word_filter, h, commandWords]

/-! The commands one after the other. -/

/-- A command that the host sends next, taken by a block in which the host steps: waits and NOPs pass, and then the command's
effect. -/
theorem HostSends.reaches {w : BitVec 16} (h : HostSends (w :: ws) s) (hp : hostPhase s.phase = true) (hw : w ≠ 0)
    (hd : decodeCmd w = .instr i)
    (next : ∀ t, SameArrays s t → SameControl s t → HostSends (w :: ws) t → t.cmdValid = true → t.cmd = w →
      ∃ u, exec i t = .next u ∧ (HostSends ws (u.driveHost false) → P (u.driveHost false))) : Reaches P s := by
  refine (h.presents hp).trans fun t ht => ?_
  obtain ⟨u, hu, hP⟩ := next t ht.arrays ht.control ht.host ht.valid ht.cmd
  obtain ⟨-, -, -, hphase, -⟩ := ht.control
  exact (RunsTo.accept ht.host (hphase ▸ hp) ht.valid (ht.cmd ▸ hd) (ht.cmd ▸ hw) hu hP).reaches

theorem Absorbed.of_same (h : Absorbed m s) (ha : SameArrays s t) (hc : SameControl s t) : Absorbed m t := by
  obtain ⟨hh, -, -, hblk, -⟩ := ha
  obtain ⟨hfill, hlen, -, hphase, hpadp, -⟩ := hc
  exact h.congr hphase hlen hpadp hfill hblk hh

/-- The open message, while the host goes on sending. -/
structure Open (m : List Byte) (ws : List (BitVec 16)) (s : State) : Prop where
  absorbed : Absorbed m s
  errcode : s.errcode = 0
  host : HostSends ws s

theorem Open.hostPhase (h : Open m ws s) : Machine.hostPhase s.phase = true := by
  rw [h.absorbed.phase]
  decide

/-- INIT, from any state in which the host steps. -/
theorem HostSends.opens (h : HostSends (cmdWord 0x1 0 :: ws) s) (hp : hostPhase s.phase = true) : Reaches (Open [] ws) s :=
  h.reaches (i := .init) hp (by decide) (by decide) fun t _ _ _ _ _ =>
    ⟨_, rfl, fun host => ⟨(absorbed_openMessage t).driveHost false, by simp, host⟩⟩

/-- ABSORB of every byte. -/
theorem Open.absorbs (h : Open m (commandWords (bs.map .absorb) ++ ws) s) (hlen : (m ++ bs).length ≤ 2 ^ 61 - 1) :
    Reaches (Open (m ++ bs) ws) s := by
  induction bs generalizing m s with
  | nil =>
    rw [List.append_nil]
    exact Reaches.refl h
  | cons b bs ih =>
    have hshort : m.length < 2 ^ 61 - 1 := by
      rw [List.length_append, List.length_cons] at hlen
      omega
    have hsends : HostSends (cmdWord 0x2 b :: (commandWords (bs.map .absorb) ++ ws)) s := by
      have hhost := h.host
      rwa [List.map_cons, commandWords_cons (i := .absorb b) rfl, List.cons_append] at hhost
    rw [List.append_cons] at hlen ⊢
    have happend : Reaches (Open (m ++ [b]) (commandWords (bs.map .absorb) ++ ws)) s := by
      refine (hsends.presents h.hostPhase).trans fun t ht => ?_
      obtain ⟨-, -, -, -, -, herr⟩ := ht.control
      obtain ⟨k, -, -, run⟩ := (h.absorbed.of_same ht.arrays ht.control).append hshort ht.host ht.valid ht.cmd
      exact (run.mono fun u ⟨ha, herr', host⟩ => (⟨ha, by rw [herr', herr, h.errcode], host⟩ : Open _ _ u)).reaches
    exact happend.trans fun t ht => ih ht hlen

/-- The digest of `m` in DONE, while the host goes on sending. -/
structure Digested (m : List Byte) (ws : List (BitVec 16)) (s : State) : Prop where
  phase : s.phase = Phase.done
  errcode : s.errcode = 0
  digest : s.digest = sha256 m
  host : HostSends ws s

/-- SERIAL, when the whole of pad(m) is folded in. -/
theorem PaddingFolded.serial (h : PaddingFolded m s t) (herr : s.errcode = 0) (hws : s.todo = ws) :
    RunsTo 1 (Digested m ws) t := by
  refine RunsTo.busy (i := .serial) h.host (decodePhase_of_eq h.phase (by decide)) rfl fun host => ⟨?_, ?_, ?_, hws ▸ host⟩
  · simp
  · simp [h.errcode, herr]
  · simp [h.h, sha256]

/-- FINAL and the final period. -/
theorem Open.finishes (h : Open m (cmdWord 0x3 0 :: ws) s) : Reaches (Digested m ws) s := by
  have hpadding : Reaches (fun u => ∃ s₀ : State, Emitting m s₀ m.length u ∧ s₀.errcode = 0 ∧ s₀.todo = ws) s := by
    refine h.host.reaches (i := .final) h.hostPhase (by decide) (by decide) fun t ha hc _ _ _ => ?_
    have ht := h.absorbed.of_same ha hc
    obtain ⟨-, -, -, -, -, herr⟩ := hc
    refine ⟨_, final_of_opened ht.phase, fun host =>
      ⟨_, ht.emitting ⟨host.noReset, rfl⟩ ?_ ?_ ?_ ?_ ?_ ?_ rfl, ?_, host.todo⟩⟩ <;> simp [herr, h.errcode]
  refine hpadding.trans fun u ⟨s₀, hemit, herr, hws⟩ => ?_
  exact (hemit.folds_padding.trans fun t ht => ht.serial herr hws).reaches

/-- R283: the whole message, from any state in which the host steps. -/
theorem HostSends.digests (h : HostSends (commandWords (sendCommands m) ++ ws) s) (hp : hostPhase s.phase = true)
    (hlen : m.length ≤ 2 ^ 61 - 1) : Reaches (Digested m ws) s := by
  rw [commandWords_send, List.cons_append, List.append_assoc, List.singleton_append] at h
  exact ((h.opens hp).trans fun t ht => ht.absorbs (by rwa [List.nil_append])).trans fun t ht => ht.finishes

/-- Settles O55: INIT, the ABSORBs and FINAL reach DONE with the digest, where RDD reads it byte by byte. -/
theorem blockComputesSha256 : Obligations.BlockComputesSha256 := by
  unfold Obligations.BlockComputesSha256
  intro m s hlen _ hp hr hv hsends
  have host := Sends.hostSends hsends hr hv
  rw [← List.append_nil (commandWords _)] at host
  obtain ⟨n, t, run, ht⟩ := host.digests hp hlen
  refine ⟨n, t, run, ht.phase, ht.errcode, ht.digest, fun i hi => ⟨_, rdd_of_done _ ht.phase, rfl, ?_⟩⟩
  simp only [State.respond_rsp, rddIndex_ofNat hi, ht.digest]

end Sys2Proof.Machine
end

section
/-! SUPPORT. The bytes a run returns (R310): each accounts for an RDD the host sent, so a run that takes no RDD returns nothing;
the reading of the digest; and the statement about it. -/

namespace Sys2Proof.Machine

variable {s t : State} {ws : List (BitVec 16)} {n : Nat} {out : List Byte}

/-! Responses of a run. -/

theorem responses_succ (h : step s = .next t) :
    responses (n + 1) s = (if t.rspValid then [t.rsp] else []) ++ responses n t := by
  simp only [responses, h]

theorem runFor_succ_next (h : runFor (n + 1) s = .next t) : ∃ u, step s = .next u ∧ runFor n u = .next t := by
  cases hs : step s with
  | next u => exact ⟨u, rfl, (runFor_succ hs).symm.trans h⟩
  | fault r =>
    have h' : Sys2Proof.core.step s = .fault r := hs
    simp only [runFor, Host.Core.run, h'] at h
    cases h
  | refused r =>
    have h' : Sys2Proof.core.step s = .refused r := hs
    simp only [runFor, Host.Core.run, h'] at h
    cases h

theorem responses_add {k : Nat} (h : runFor n s = .next t) : responses (n + k) s = responses n s ++ responses k t := by
  induction n generalizing s with
  | zero =>
    cases h
    rw [Nat.zero_add]
    rfl
  | succ n ih =>
    obtain ⟨u, hs, hrun⟩ := runFor_succ_next h
    rw [Nat.succ_add, responses_succ hs, responses_succ hs, ih hrun, List.append_assoc]

/-- No word of the list is an RDD. -/
def NoRdd (ws : List (BitVec 16)) : Prop := ∀ w ∈ ws, ∀ arg, decodeCmd w ≠ .instr (.rdd arg)

/-- A response accounts for an RDD among the commands that the step takes. -/
theorem todo_of_response (hn : NoReset s) (h : step s = .next t) (hv : t.rspValid = true) :
    ∃ w arg, s.todo = w :: t.todo ∧ decodeCmd w = .instr (.rdd arg) := by
  obtain ⟨i, _, hsel, -⟩ := onlyRddResponds s t h hv
  obtain ⟨-, hp, hvalid, hd⟩ := select_command_iff.1 hsel
  have hne : s.cmd ≠ 0 := by
    intro hzero
    rw [hzero, show decodeCmd 0 = .instr .nop by decide] at hd
    cases hd
  obtain ⟨hcons, htail⟩ := HostSends.take ⟨hn, rfl⟩ h hp hvalid hne
  exact ⟨s.cmd, _, by rw [htail.todo, ← hcons], hd⟩

theorem todo_suffix (hn : NoReset s) (h : step s = .next t) : ∃ taken, s.todo = taken ++ t.todo := ⟨_, todo_step hn h⟩

/-- A run that takes no RDD from the host returns nothing. -/
theorem responses_of_run (hn : NoReset s) (h : runFor n s = .next t) :
    ∃ taken, s.todo = taken ++ t.todo ∧ (NoRdd taken → responses n s = []) := by
  induction n generalizing s with
  | zero =>
    cases h
    exact ⟨[], rfl, fun _ => rfl⟩
  | succ n ih =>
    obtain ⟨u, hs, hrun⟩ := runFor_succ_next h
    obtain ⟨rest, hrest, hsilent⟩ := ih (hn.step hs) hrun
    rw [responses_succ hs]
    cases hv : u.rspValid with
    | true =>
      obtain ⟨w, arg, hw, hd⟩ := todo_of_response hn hs hv
      exact ⟨w :: rest, by rw [hw, hrest, List.cons_append],
        fun hnone => absurd hd (hnone w List.mem_cons_self arg)⟩
    | false =>
      obtain ⟨taken, htaken⟩ := todo_suffix hn hs
      refine ⟨taken ++ rest, by rw [htaken, hrest, List.append_assoc], fun hnone => ?_⟩
      exact hsilent fun w hw => hnone w (List.mem_append_right _ hw)

/-- With no RDD to come, nothing is ever returned. -/
theorem responses_nil (h : HostSends ws s) (hnone : NoRdd ws) (n : Nat) : responses n s = [] := by
  induction n generalizing s ws with
  | zero => rfl
  | succ n ih =>
    cases hs : step s with
    | fault r => simp only [responses, hs]
    | refused r => simp only [responses, hs]
    | next t =>
      have hv : t.rspValid = false := by
        by_contra hv
        obtain ⟨w, arg, hw, hd⟩ := todo_of_response h.noReset hs (by simpa using hv)
        exact hnone w (by rw [← h.todo, hw]; exact List.mem_cons_self) arg hd
      obtain ⟨taken, htaken⟩ := todo_suffix h.noReset hs
      have hrest : NoRdd t.todo := fun w hw => hnone w (by rw [← h.todo, htaken]; exact List.mem_append_right _ hw)
      rw [responses_succ hs, hv, ih ⟨h.noReset.step hs, rfl⟩ hrest]
      rfl

/-! Runs that return a list and then nothing more. -/

/-- However long the machine runs from `s`, past some number of steps it has returned exactly `out`. -/
def Returns (out : List Byte) (s : State) : Prop := ∃ n₀, ∀ n, n₀ ≤ n → responses n s = out

theorem Returns.of_run {out' : List Byte} (h : runFor n s = .next t) (hout : responses n s = out) (ht : Returns out' t) :
    Returns (out ++ out') s := by
  obtain ⟨n₀, hn₀⟩ := ht
  refine ⟨n + n₀, fun k hk => ?_⟩
  obtain ⟨l, rfl⟩ := Nat.exists_eq_add_of_le ((Nat.le_add_right n n₀).trans hk)
  rw [responses_add h, hout, hn₀ l (by omega)]

/-- A run to a state in which the host has the same commands to send but for some that are no RDD. -/
theorem Returns.of_reaches {P : State → Prop} {taken : List (BitVec 16)} (hs : HostSends (taken ++ ws) s)
    (hnone : NoRdd taken) (h : Reaches P s) (next : ∀ t, P t → HostSends ws t ∧ Returns out t) : Returns out s := by
  obtain ⟨n, t, run, ht⟩ := h
  obtain ⟨hhost, hret⟩ := next t ht
  obtain ⟨taken', htodo, hsilent⟩ := responses_of_run hs.noReset run
  rw [hs.todo, hhost.todo] at htodo
  obtain rfl := List.append_cancel_right htodo
  exact Returns.of_run run (hsilent hnone) hret

/-! Reading the digest. -/

/-- The RDD commands of a list of indices, in DONE: the bytes at those indices come in order, and nothing else. -/
theorem returns_of_reading {d : Vector Byte 32} (is : List Nat) (his : ∀ i ∈ is, i < 32) (hp : s.phase = Phase.done)
    (hd : s.digest = d) (h : HostSends (commandWords (is.map fun i => .rdd (BitVec.ofNat 8 i))) s) :
    Returns (is.map fun i => d.toList.getD i 0) s := by
  induction is generalizing s with
  | nil => exact ⟨0, fun n _ => responses_nil h (fun w hw => absurd hw List.not_mem_nil) n⟩
  | cons i is ih =>
    have hi : i < 32 := his i List.mem_cons_self
    rw [List.map_cons, commandWords_cons (i := .rdd (BitVec.ofNat 8 i)) rfl] at h
    have hword : decodeCmd (cmdWord 0x4 (BitVec.ofNat 8 i)) = .instr (.rdd (BitVec.ofNat 8 i)) :=
      decode_encode (i := .rdd (BitVec.ofNat 8 i)) ((rdd_wellFormed_iff _).2 (by bv_omega))
    have hhost : hostPhase s.phase = true := by rw [hp]; decide
    refine Returns.of_reaches (taken := []) h (fun w hw => absurd hw List.not_mem_nil) (h.presents hhost) fun t ht =>
      ⟨ht.host, ?_⟩
    obtain ⟨-, -, -, -, hdigest⟩ := ht.arrays
    obtain ⟨-, -, -, hphase, -⟩ := ht.control
    have hdone : t.phase = Phase.done := hphase.trans hp
    have hs : step t = .next ((t.respond (t.digest[(rddIndex (BitVec.ofNat 8 i)).toNat]'(rddIndex _).isLt)).driveHost false) := by
      obtain ⟨-, hcommand, -⟩ := stepRunsTheDecodedInstruction t ht.host.noReset.1
      rw [hcommand _ (hphase ▸ hhost) ht.valid (ht.cmd ▸ hword), rdd_of_done _ hdone]
      rfl
    have hnext := (ht.host.take hs (hphase ▸ hhost) ht.valid (ht.cmd ▸ cmdWord_ne_zero (by decide))).2
    have hbyte : responses 1 t = [d.toList.getD i 0] := by
      rw [responses_succ hs]
      simp [responses, rddIndex_ofNat hi, hdigest, hd, List.getD_eq_getElem?_getD, hi]
    refine Returns.of_run (runFor_succ hs) hbyte (ih (fun j hj => his j (List.mem_cons_of_mem _ hj)) ?_ ?_ hnext)
    · simpa using hdone
    · simpa [hdigest] using hd

theorem map_getD_range {α : Type} (l : List α) (x : α) : (List.range l.length).map (fun i => l.getD i x) = l := by
  refine List.ext_getElem (by simp) fun i hi hi' => ?_
  simp [List.getD_eq_getElem?_getD, hi']

theorem exists_of_mem_commandWords {w : BitVec 16} {cs : List Instr} (h : w ∈ commandWords cs) :
    ∃ i ∈ cs, encode i = .cmd16 w := by
  obtain ⟨_, hmove, hw⟩ := List.mem_filterMap.1 h
  obtain ⟨i, hi, rfl⟩ := List.mem_map.1 hmove
  refine ⟨i, hi, ?_⟩
  cases he : encode i <;> simp_all [presentMove, HostMove.word]

theorem mem_sendCommands {i : Instr} {m : List Byte} (h : i ∈ sendCommands m) :
    i = .init ∨ (∃ b, i = .absorb b) ∨ i = .final := by
  simp only [sendCommands, List.mem_append, List.mem_singleton, List.mem_map] at h
  rcases h with (rfl | ⟨b, -, rfl⟩) | rfl
  · exact .inl rfl
  · exact .inr (.inl ⟨b, rfl⟩)
  · exact .inr (.inr rfl)

/-- No command that sends a message is an RDD. -/
theorem noRdd_sendCommands (m : List Byte) : NoRdd (commandWords (sendCommands m)) := by
  intro w hw arg hd
  obtain ⟨i, hi, he⟩ := exists_of_mem_commandWords hw
  obtain ⟨-, he'⟩ := encode_of_decodeCmd hd
  have hsame : encode i = encode (.rdd arg) := he.trans he'.symm
  have hop {op : BitVec 4} {b : Byte} (h : cmdWord op b = cmdWord 0x4 arg) : op = 0x4 := by
    rw [← opField_cmdWord op b, h, opField_cmdWord]
  rcases mem_sendCommands hi with rfl | ⟨b, rfl⟩ | rfl
  · exact absurd (hop (Encoding.cmd16.inj hsame)) (by decide)
  · exact absurd (hop (Encoding.cmd16.inj hsame)) (by decide)
  · exact absurd (hop (Encoding.cmd16.inj hsame)) (by decide)

theorem present_cmdWord_kept {op : BitVec 4} (arg : Byte) (h : op ≠ 0) :
    (HostMove.present (cmdWord op arg) ≠ .wait && HostMove.present (cmdWord op arg) ≠ presentMove .nop) = true := by
  have hne : HostMove.present (cmdWord op arg) ≠ presentMove .nop := fun e => cmdWord_ne_zero h (HostMove.present.inj e)
  simp [hne]

/-- The adapter's moves hold no wait and no NOP, so they send the adapter's commands. -/
theorem sends_adapter (m : List Byte) :
    Sends ((sendCommands m ++ readCommands).map presentMove) (sendCommands m ++ readCommands) := by
  refine List.filter_eq_self.2 fun move hmove => ?_
  obtain ⟨i, hi, rfl⟩ := List.mem_map.1 hmove
  rcases List.mem_append.1 hi with hi | hi
  · rcases mem_sendCommands hi with rfl | ⟨b, rfl⟩ | rfl
    · exact present_cmdWord_kept 0 (op := 0x1) (by decide)
    · exact present_cmdWord_kept b (op := 0x2) (by decide)
    · exact present_cmdWord_kept 0 (op := 0x3) (by decide)
  · obtain ⟨n, -, rfl⟩ := List.mem_map.1 hi
    exact present_cmdWord_kept _ (op := 0x4) (by decide)

/-- Settles O57: the commands that send the message return nothing, the RDDs its digest, and then nothing is left to send. -/
theorem adapterReturnsTheDigest : Obligations.AdapterReturnsTheDigest := by
  unfold Obligations.AdapterReturnsTheDigest
  intro textToBytes m moves s hentry _ hp hr hv hscript
  have hlen : m.length ≤ 2 ^ 61 - 1 := by
    by_contra hlong
    rw [hashEntry_rawBytes_of_gt textToBytes (Nat.lt_of_not_le hlong)] at hentry
    cases hentry
  rw [hashEntry_rawBytes_of_le textToBytes hlen] at hentry
  cases hentry
  have host := Sends.hostSends (hscript ▸ sends_adapter m) hr hv
  rw [commandWords_append] at host
  refine Returns.of_reaches host (noRdd_sendCommands m) (host.digests hp hlen) fun t ht => ⟨ht.host, ?_⟩
  have hread := returns_of_reading (List.range 32) (fun i hi => List.mem_range.1 hi) ht.phase ht.digest ht.host
  have hall := map_getD_range (sha256 m).toList 0
  rw [Vector.length_toList] at hall
  rwa [hall] at hread

end Sys2Proof.Machine
end
